-- ==== Sys2Proof/Word.lean ====
section
/-!
DEFINITION. The widths the spec gives its values (00_scope.md rule R8): bytes on the bus, 16-bit LCD words and
audio samples, 32-bit command and response words, and one-bit levels.
-/
namespace Sys2Proof

/-- A byte: what crosses the bus in one cycle (R68). -/
abbrev Byte := BitVec 8

/-- A 16-bit LCD word, pixel, immediate or audio sample (R66). -/
abbrev Half := BitVec 16

/-- A 32-bit command word, response word or port register (R8). -/
abbrev Word := BitVec 32

/-- The level of a one-bit line or flag: `true` is 1, `false` is 0. -/
abbrev Level := Bool

end Sys2Proof
end

