-- ==== Sys2Proof/Config.lean ====
section
/-!
DEFINITION. What an implementation fixes (00_scope.md rule R7): named constants for the figures the document or the
spec fixes, one record `Params` for the parameters the spec leaves OPEN (State carries one, see log entry 2), the
reference configuration REFCFG, and the free values of the environment (opaque constants, log entries 3 and 9).
-/
namespace Sys2Proof

/-- STROBE_ACTIVE (R22, R7): the pin level of an asserted strobe. -/
abbrev Config.strobeActive : Level := false

/-- W_SETUP (R7): the settle wait, in cycles. -/
abbrev Config.wSetup : Nat := 3

/-- T_ID_HI (R7), in nanoseconds. -/
abbrev Config.tIdHi : Nat := 16

/-- T_ID_LO (R7), in nanoseconds. -/
abbrev Config.tIdLo : Nat := 26

/-- T_FM_HI (R7), in nanoseconds. -/
abbrev Config.tFmHi : Nat := 355

/-- T_FM_LO (R7), in nanoseconds. -/
abbrev Config.tFmLo : Nat := 90

/-- SQ_N (R36): the largest block length. -/
abbrev Config.sqN : Nat := 32

/-- SQ_THRESHOLD (R36): the threshold magnitude. -/
abbrev Config.sqThreshold : Nat := 3072

/-- BQ_FRAC (R7): the fraction bits of a coefficient. -/
abbrev Config.bqFrac : Nat := 14

/-- The constant BUS_MASK holds after reset (R28): a 0 bit makes the pin reachable through BUS_MPIN. -/
abbrev Config.busMaskReset : Word := 0xFFFF00FF#32

/-- SQ_MEASURE (R204): the three energy measures. -/
inductive Measure where
  | peakSq
  | sumSq
  | sumAbs
  deriving DecidableEq, Repr

/-- The five legal touch configurations (R43). -/
inductive TouchConfig where
  | float
  | waitTouch
  | sensePressure
  | senseX
  | senseY
  deriving DecidableEq, Repr

/-- TOUCH_ENC (R43, R7): the byte of each of the five touch configurations. -/
structure TouchEnc where
  float : Byte
  waitTouch : Byte
  sensePressure : Byte
  senseX : Byte
  senseY : Byte
  deriving DecidableEq, Repr

/-- BQ_COEF (R35): five signed 16-bit integers at scale 2^BQ_FRAC. -/
structure Coef where
  b0 : Half
  b1 : Half
  b2 : Half
  a1 : Half
  a2 : Half
  deriving DecidableEq, Repr

/-- The OPEN parameters of R7. The four read waits are derived from `fClk` (R272), in Machine/Flags.lean. -/
structure Params where
  /-- F_CLK in hertz (DESIGN CHOICE: a whole number of hertz, log entry 11). -/
  fClk : Nat
  /-- TOUCH_ENC: any five bytes, also ones that break the constraints of R43 (DESIGN CHOICE, log entry 22). -/
  touchEnc : TouchEnc
  /-- BQ_COEF. -/
  bqCoef : Coef
  /-- SQ_MEASURE. -/
  sqMeasure : Measure
  /-- SQ_INVERT. -/
  sqInvert : Bool
  /-- IO_REG_RESET. -/
  ioRegReset : Byte
  deriving DecidableEq, Repr

/-- REFCFG (92_eei_decisions.md section 1). It leaves IO_REG_RESET unspecified: the 0x00 here is a DESIGN CHOICE
(log entry 6), and statements about reset are made for every parameter record. -/
def Config.refcfg : Params where
  fClk := 200000000
  touchEnc :=
    { float := 0x0F#8, waitTouch := 0x3C#8, sensePressure := 0x9E#8, senseX := 0x3E#8, senseY := 0xCB#8 }
  bqCoef :=
    { b0 := BitVec.ofInt 16 8502, b1 := BitVec.ofInt 16 (-15682), b2 := BitVec.ofInt 16 8502,
      a1 := BitVec.ofInt 16 (-13087), a2 := BitVec.ofInt 16 7202 }
  sqMeasure := .peakSq
  sqInvert := false
  ioRegReset := 0x00#8

/-- FREE VALUE (log entry 3): the environment's answer to the n-th sample of the bus, `draw(8)` (R75). -/
opaque Config.freeBusByte : Nat → Byte

/-- FREE VALUE (log entry 3): the level the environment drives on P_ROT_A at its n-th read, `draw(1)` (R75). -/
opaque Config.freeRotLevel : Nat → Level

/-- FREE VALUE (log entry 9): the n-th word TCFG returns while LAST_VALID is 0, `draw(32)` (R32). -/
opaque Config.freeWord : Nat → Word

end Sys2Proof
end

