-- ==== Sys2Proof/Syntax.lean ====
section
/-!
DEFINITION. The 27 commands of the opcode map (30_encoding.md rule R95), with their operands as rule R94 assembles
them. One constructor per row of spec/opcode_table.json.
-/
namespace Sys2Proof

/-- A command. An operand holds every bit the encoding gives it, also the half of the immediate that DRVL and DRVH
ignore. The count word of the array formats and the `aux` length of SQX are the length of the list. -/
inductive Instr where
  /-- SETDIR (R121): `d` is the level P_DIR gets, 0 write, 1 read. -/
  | setdir (d : Level)
  /-- DRVL (R122): the low byte of `value` is latched. -/
  | drvl (value : Half)
  /-- DRVH (R123): the high byte of `value` is latched. -/
  | drvh (value : Half)
  /-- SAMP (R124). -/
  | samp
  /-- ADDR (R125): `a` is the level P_ADDR gets. -/
  | addr (a : Level)
  /-- RDA (R126): assert the LCD read-strobe. -/
  | rda
  /-- RDD (R127): deassert the LCD read-strobe. -/
  | rdd
  /-- WRA (R128): assert the LCD write-strobe. -/
  | wra
  /-- WRD (R129): deassert the LCD write-strobe. -/
  | wrd
  /-- STBA (R130): assert the I/O latch-strobe. -/
  | stba
  /-- STBD (R131): deassert the I/O latch-strobe. -/
  | stbd
  /-- WAIT (R132): inline spin of `n` cycles. -/
  | wait (n : Half)
  /-- PDELAY (R133): polled delay of `n` cycles. -/
  | pdelay (n : Half)
  /-- LCMD (R151): write the LCD command byte `cmd`. -/
  | lcmd (cmd : Byte)
  /-- LDAT (R152): write one LCD data word. -/
  | ldat (value : Half)
  /-- LPIX (R153): write one pixel. -/
  | lpix (color : Half)
  /-- LPIXR (R154): write one pixel `count` times. -/
  | lpixr (color : Half) (count : Word)
  /-- LPIXA (R155): write an array of pixels. -/
  | lpixa (elems : List Half)
  /-- LWRD (R156): write one word. -/
  | lwrd (word : Half)
  /-- LWRDA (R157): write an array of words. -/
  | lwrda (elems : List Half)
  /-- LRDID (R158): read a word, short profile. -/
  | lrdid
  /-- LRDFM (R159): read a word, long profile. -/
  | lrdfm
  /-- IORD (R181): read the switch register. -/
  | iord
  /-- TCFG (R182): write a touch configuration byte. -/
  | tcfg (config : Byte)
  /-- ROTA (R183): read the rotary line A. -/
  | rota
  /-- SQX (R203): classify a block of signed samples. -/
  | sqx (samples : List Half)
  /-- BQF (R201): filter one signed sample. -/
  | bqf (sample : Half)
  deriving DecidableEq, Repr

/-- Length in command words (R97). -/
def Instr.words : Instr → Nat
  | .lpixr _ _ => 2
  | .lpixa elems => 2 + elems.length
  | .lwrda elems => 2 + elems.length
  | .sqx samples => 1 + samples.length
  | .setdir _ | .drvl _ | .drvh _ | .samp | .addr _ | .rda | .rdd | .wra | .wrd | .stba | .stbd | .wait _
    | .pdelay _ | .lcmd _ | .ldat _ | .lpix _ | .lwrd _ | .lrdid | .lrdfm | .iord | .tcfg _ | .rota | .bqf _ => 1

end Sys2Proof
end

