-- ==== Sys2Proof/Machine/State.lean ====
section
/-!
DEFINITION. The state of the machine (10_state.md rule R20), the inputs of its step relation (rule R44), and the state
after reset (rule R45). All of it is plain data.
-/
namespace Sys2Proof.Machine

/-- The five lines the controller drives (R21). -/
inductive OutPin where
  /-- P_DIR: 0 write, 1 read (R23). -/
  | dir
  /-- P_LCD_RD (R22). -/
  | lcdRd
  /-- P_LCD_WR (R22). -/
  | lcdWr
  /-- P_IO_STB (R22). -/
  | ioStb
  /-- P_ADDR: 1 LCD data or I/O register 1, 0 LCD command or I/O register 0 (R24). -/
  | addr
  deriving DecidableEq, Repr

/-- The levels of the seven GPIO lines (R21). The controller drives the first five; the environment drives the last
two, and the field holds the level last seen there (log entry 8). -/
@[ext]
structure Pins where
  dir : Level
  lcdRd : Level
  lcdWr : Level
  ioStb : Level
  addr : Level
  rotA : Level
  rotB : Level
  deriving DecidableEq, Repr

/-- PHASE (R33). -/
inductive Phase where
  | idle
  | commandPhase
  | dataPhase
  | readPhase
  deriving DecidableEq, Repr

/-- SETTLE (R40): the wait cycles since the last change the far side can see, or INF. -/
inductive Settle where
  | cycles (n : Nat)
  | inf
  deriving DecidableEq, Repr

/-- The two tiers of busy-wait (R132, R133). -/
inductive WaitKind where
  | spin
  | polled
  deriving DecidableEq, Repr

/-- The two LCD read profiles (R160). -/
inductive Profile where
  | id
  | fm
  deriving DecidableEq, Repr

/-- An event of EV, in the ten forms of R39. -/
inductive Event where
  /-- PinW: a pin write, also when the level does not change. -/
  | pinW (pin : OutPin) (old new : Level)
  /-- OeW: a write of BUS_OE. -/
  | oeW (old new : Level)
  /-- LatchW: a write of OUT_LATCH. -/
  | latchW (old new : Byte)
  /-- Wait: a busy-wait of `n` cycles at least. -/
  | wait (kind : WaitKind) (n : Nat)
  /-- Samp: a sample of the bus. -/
  | samp (v : Byte)
  /-- RotA: a read of P_ROT_A. -/
  | rotA (b : Level)
  /-- LcdWrite: a word was written at address level `a`. -/
  | lcdWrite (a : Level) (hi lo : Byte)
  /-- LcdRead: a word was read. -/
  | lcdRead (profile : Profile) (hi lo : Byte)
  /-- IoRead: the switch register was read. -/
  | ioRead (v : Byte)
  /-- IoWrite: the I/O register was written at address level `a`. -/
  | ioWrite (a : Level) (v : Byte)
  deriving DecidableEq, Repr

/-- The seven faults of R231, each with the info recorded with it. -/
inductive FaultKind where
  | illegalCommand (w : Word)
  | lengthMismatch (len : Nat)
  | truncatedCommand (index : Nat)
  | illegalTouchConfig (b : Byte)
  | phaseViolation (found : Phase)
  | sampleWhileDriving
  | settleViolation (found : Settle)
  deriving DecidableEq, Repr

/-- A fault record: the fault and its info, and the CP of the command (R41, R231). -/
structure FaultRecord where
  kind : FaultKind
  cp : Nat
  deriving DecidableEq, Repr

/-- The biquad registers X1, X2, Y1, Y2 (R34), signed 16-bit patterns. -/
structure Biquad where
  x1 : Half
  x2 : Half
  y1 : Half
  y2 : Half
  deriving DecidableEq, Repr

/-- The environment's answers (R44, R75): answer number `n` to a bus sample is entry `n` of `busIn`, or past its end
the free value `Config.freeBusByte n`; likewise `rotIn` for P_ROT_A. The counters are the model's own (log entry 3). -/
structure Env where
  busIn : List Byte
  rotIn : List Level
  busDraws : Nat
  rotDraws : Nat
  wordDraws : Nat
  deriving DecidableEq, Repr

/-- The state tuple of R20, with the inputs of R44 that the step reads (`cs`, `cfg`, `env`). -/
@[ext]
structure State where
  /-- CS, the command stream (R61): an input, fixed for a run (R74, log entry 1). -/
  cs : List Word
  /-- The parameters of R7: an input, fixed for a run (log entry 2). -/
  cfg : Params
  /-- The environment's answers (R75, log entry 3). -/
  env : Env
  /-- The seven GPIO lines (R21). -/
  pins : Pins
  /-- OUT_LATCH (R25). -/
  outLatch : Byte
  /-- BUS_OE (R26). -/
  busOe : Level
  /-- BUS_MASK (R28). -/
  busMask : Word
  /-- IO_REG (R31). -/
  ioReg : Byte
  /-- LAST_READ (R32). -/
  lastRead : Word
  /-- LAST_VALID (R32). -/
  lastValid : Level
  /-- PHASE (R33). -/
  phase : Phase
  /-- X1, X2, Y1, Y2 (R34). -/
  biq : Biquad
  /-- CP (R37). -/
  cp : Nat
  /-- RESP (R38), oldest word first. -/
  resp : List Word
  /-- EV (R39), oldest event first. -/
  ev : List Event
  /-- SETTLE (R40). -/
  settle : Settle
  /-- FAULT (R41). -/
  fault : Option FaultRecord
  deriving DecidableEq, Repr

/-- Why a step ends the run with a fault. -/
inductive Fault where
  /-- Raised by `step` alone, on a state whose FAULT holds a record: such a state takes no further step (R41).
  Safe: the spec gives the state no step. Recording the fault is itself a next state (R232, log entry 4). -/
  | halted (record : FaultRecord)
  deriving DecidableEq, Repr

/-- Why there is no step. -/
inductive Refusal where
  /-- Raised by an arm of `exec` that has no meaning yet; there is none left. Safe. -/
  | notModelled (mnemonic : String)
  /-- Raised by `step` alone when CP = length(CS): the run is over and the state is final (R263, log entry 5). Safe. -/
  | endOfRun
  /-- Raised by `step` alone when CP > length(CS), which no run from reset reaches: the spec gives such a state no
  meaning (log entry 5). Safe. -/
  | cpOutsideStream
  deriving DecidableEq, Repr

/-- The state after reset (R45, R260) under the parameters `p`. IO_REG takes IO_REG_RESET; LAST_READ and the two input
lines have no value in the spec, and the ones here are DESIGN CHOICES (log entries 7 and 8). -/
def State.resetWith (p : Params) : State where
  cs := []
  cfg := p
  env := { busIn := [], rotIn := [], busDraws := 0, rotDraws := 0, wordDraws := 0 }
  pins :=
    { dir := true, lcdRd := !Config.strobeActive, lcdWr := !Config.strobeActive, ioStb := !Config.strobeActive,
      addr := false, rotA := false, rotB := false }
  outLatch := 0x00#8
  busOe := false
  busMask := Config.busMaskReset
  ioReg := p.ioRegReset
  lastRead := 0x00000000#32
  lastValid := false
  phase := .idle
  biq := { x1 := 0#16, x2 := 0#16, y1 := 0#16, y2 := 0#16 }
  cp := 0
  resp := []
  ev := []
  settle := .inf
  fault := none

/-- The machine right after reset, under the reference configuration (log entry 2). -/
def State.reset : State := State.resetWith Config.refcfg

end Sys2Proof.Machine
end

