-- ==== Sys2Proof/Machine/Flags.lean ====
section
/-!
DEFINITION. The machine has no condition codes (10_state.md rule R47). What gates a command is SETTLE (rule R40,
70_reset_and_hazards.md rule R265) and PHASE (rule R33); this file holds their arithmetic, the wait counts (rule R272),
and the code of a fault (60_exceptions.md rule R231).
-/
namespace Sys2Proof.Machine

/-- `SETTLE + n`, with INF + n = INF (R40). -/
def Settle.add : Settle → Nat → Settle
  | .cycles m, n => .cycles (m + n)
  | .inf, _ => .inf

/-- `SETTLE < W_SETUP` (R265). -/
def Settle.short : Settle → Bool
  | .cycles m => m < Config.wSetup
  | .inf => false

/-- The cycles that realise a time of `ns` nanoseconds: ceil(T * F_CLK) (R272). -/
def cyclesOf (p : Params) (ns : Nat) : Nat := (ns * p.fClk + 999999999) / 1000000000

/-- W_ID_HI (R7, R272). -/
def wIdHi (p : Params) : Nat := cyclesOf p Config.tIdHi

/-- W_ID_LO (R7, R272). -/
def wIdLo (p : Params) : Nat := cyclesOf p Config.tIdLo

/-- W_FM_HI (R7, R272). -/
def wFmHi (p : Params) : Nat := cyclesOf p Config.tFmHi

/-- W_FM_LO (R7, R272). -/
def wFmLo (p : Params) : Nat := cyclesOf p Config.tFmLo

/-- What a fast-path write requires of PHASE (R33). -/
def Phase.writable : Phase → Bool
  | .dataPhase => true
  | .idle | .commandPhase | .readPhase => false

/-- What an LCD read requires of PHASE (R33). R231 raises PhaseViolation in Idle; CommandPhase never stands at a
command boundary (R33). -/
def Phase.readable : Phase → Bool
  | .dataPhase | .readPhase => true
  | .idle | .commandPhase => false

/-- The code of a fault (R231). -/
def FaultKind.code : FaultKind → Nat
  | .illegalCommand _ => 1
  | .lengthMismatch _ => 2
  | .truncatedCommand _ => 3
  | .illegalTouchConfig _ => 4
  | .phaseViolation _ => 5
  | .sampleWhileDriving => 6
  | .settleViolation _ => 7

end Sys2Proof.Machine
end

