-- ==== Sys2Proof/Machine/Operands.lean ====
section
/-!
DEFINITION. How an operand becomes what a command uses (30_encoding.md rules R94, R101, R102; 00_scope.md rule R9).
-/
namespace Sys2Proof.Machine

/-- `value[7:0]`, the byte DRVL latches (R122). -/
def lowByte (v : Half) : Byte := v.extractLsb' 0 8

/-- `value[15:8]`, the byte DRVH latches (R123). -/
def highByte (v : Half) : Byte := v.extractLsb' 8 8

/-- The 16-bit value a byte operand stands for on the bus (`cmd` of R151, `config` of R182). -/
def byteValue (b : Byte) : Half := b.setWidth 16

/-- The bus field of a 32-bit port register, bits 15:8 (R29). -/
def busField (w : Word) : Byte := w.extractLsb' 8 8

/-- `zext_32(byte)` (R101). -/
def respByte (b : Byte) : Word := b.setWidth 32

/-- `zext_32(level)` (R101). -/
def respLevel (b : Level) : Word := if b then 1#32 else 0#32

/-- `zext_32(high ++ low)` (R9, R101). -/
def respPair (high low : Byte) : Word := (high ++ low).setWidth 32

/-- `zext_32(bits16(y))` (R101). -/
def respSample (y : Half) : Word := y.setWidth 32

/-- The byte of a touch configuration under TOUCH_ENC (R43). -/
def touchByte (p : Params) : TouchConfig → Byte
  | .float => p.touchEnc.float
  | .waitTouch => p.touchEnc.waitTouch
  | .sensePressure => p.touchEnc.sensePressure
  | .senseX => p.touchEnc.senseX
  | .senseY => p.touchEnc.senseY

/-- The five configurations (R43). -/
def allTouchConfigs : List TouchConfig := [.float, .waitTouch, .sensePressure, .senseX, .senseY]

/-- A legal TCFG operand: the byte of one of the five configurations (R102). -/
def legalTouchByte (p : Params) (b : Byte) : Bool := allTouchConfigs.any (fun c => touchByte p c == b)

end Sys2Proof.Machine
end

