-- ==== Sys2Proof/Machine/Ops.lean ====
section
/-!
DEFINITION. The named operations over the state: pins, port registers, environment, sequencing, fault entry
(60_exceptions.md rule R232; there is no return from a fault, rule R235), and the micro-operations of
40_bus_primitives.md with the way a sequence of them runs (rules R120 and R150).
-/
namespace Sys2Proof.Machine

/-! ### Events and pins -/

/-- `emit(e)` (R10). -/
def State.emit (s : State) (e : Event) : State := { s with ev := s.ev ++ [e] }

/-- The level of an output line. -/
def Pins.get (p : Pins) : OutPin → Level
  | .dir => p.dir
  | .lcdRd => p.lcdRd
  | .lcdWr => p.lcdWr
  | .ioStb => p.ioStb
  | .addr => p.addr

/-- The lines with one output line at a new level. -/
def Pins.set (p : Pins) (b : Level) : OutPin → Pins
  | .dir => { p with dir := b }
  | .lcdRd => { p with lcdRd := b }
  | .lcdWr => { p with lcdWr := b }
  | .ioStb => { p with ioStb := b }
  | .addr => { p with addr := b }

/-- `PIN <- b` (R10): writes the level and appends PinW(PIN, old, b). -/
def State.writePin (s : State) (pin : OutPin) (b : Level) : State :=
  { s with pins := s.pins.set b pin, ev := s.ev ++ [.pinW pin (s.pins.get pin) b] }

/-- `BUS_OE <- b`, with its event OeW (R26, R39). -/
def State.writeOe (s : State) (b : Level) : State :=
  { s with busOe := b, ev := s.ev ++ [.oeW s.busOe b] }

/-! ### Port registers -/

/-- `OUT_LATCH <- v`, with its event LatchW (R25, R39). -/
def State.writeLatch (s : State) (v : Byte) : State :=
  { s with outLatch := v, ev := s.ev ++ [.latchW s.outLatch v] }

/-- The latch after a write of the bus field `new` under the mask field `m`: a 1 bit of the mask hides its pin (R28). -/
def maskedLatch (m old new : Byte) : Byte := (old &&& m) ||| (new &&& ~~~m)

/-- A write of BUS_MPIN (R29): the bus field of `w` goes to OUT_LATCH, as far as BUS_MASK lets it (R28, log entry
14). Under the constant R28 gives BUS_MASK this is `OUT_LATCH <- w[15:8]`. -/
def State.mpinWrite (s : State) (w : Word) : State :=
  s.writeLatch (maskedLatch (busField s.busMask) s.outLatch (busField w))

/-- The environment's answer to the next bus sample (R75). -/
def Env.busAnswer (e : Env) : Byte := (e.busIn[e.busDraws]?).getD (Config.freeBusByte e.busDraws)

/-- The environment's next level on P_ROT_A (R75). -/
def Env.rotAnswer (e : Env) : Level := (e.rotIn[e.rotDraws]?).getD (Config.freeRotLevel e.rotDraws)

/-- The next `draw(32)` of TCFG (R182). -/
def Env.wordAnswer (e : Env) : Word := Config.freeWord e.wordDraws

/-- One more bus sample has been answered. -/
def Env.busNext (e : Env) : Env := { e with busDraws := e.busDraws + 1 }

/-- One more read of P_ROT_A has been answered. -/
def Env.rotNext (e : Env) : Env := { e with rotDraws := e.rotDraws + 1 }

/-- One more word has been drawn. -/
def Env.wordNext (e : Env) : Env := { e with wordDraws := e.wordDraws + 1 }

/-- `BusRead()` (R10, R27): the level of the eight bus pins. -/
def State.busRead (s : State) : Byte := if s.busOe then s.outLatch else s.env.busAnswer

/-- `BusDrive()` (R10, R27): what the far side receives, `none` when undriven. -/
def State.busDrive (s : State) : Option Byte := if s.busOe then some s.outLatch else none

/-- A read of BUS_MPIN (R29): the bus pins in bits 15:8, as far as BUS_MASK lets them be seen, and 0 elsewhere. -/
def State.mpinRead (s : State) : Word := (respByte s.busRead <<< 8) &&& ~~~s.busMask

/-- `sample_byte()` (R29, R124): `(read >> 8) & 0xFF`. -/
def State.sampleByte (s : State) : Byte := (s.mpinRead >>> 8).setWidth 8

/-- BUS_PDIR (R30): a view; `others` gives the bits the platform owns. -/
def State.busPdir (s : State) (others : Word) : Word :=
  (others &&& 0xFFFF00FF#32) ||| (if s.busOe then 0x0000FF00#32 else 0#32)

/-- The environment answers a bus sample: the answer is used up and Samp is appended (R39, R75). -/
def State.takeSample (s : State) : State :=
  { s with env := s.env.busNext, ev := s.ev ++ [.samp s.sampleByte] }

/-- The environment drives P_ROT_A and the machine reads it (R183): the answer is used up and RotA is appended. -/
def State.takeRotA (s : State) : State :=
  { s with env := s.env.rotNext, pins := { s.pins with rotA := s.env.rotAnswer },
           ev := s.ev ++ [.rotA s.env.rotAnswer] }

/-- A word is drawn for TCFG (R182). -/
def State.takeWord (s : State) : State := { s with env := s.env.wordNext }

/-! ### Registers and sequencing -/

/-- `SETTLE <- t` (R40). -/
def State.setSettle (s : State) (t : Settle) : State := { s with settle := t }

/-- `PHASE <- p` (R33). -/
def State.setPhase (s : State) (p : Phase) : State := { s with phase := p }

/-- `push(RESP, w)` (R38). -/
def State.push (s : State) (w : Word) : State := { s with resp := s.resp ++ [w] }

/-- `CP <- CP + n` (R37). -/
def State.advance (s : State) (n : Nat) : State := { s with cp := s.cp + n }

/-- `IO_REG <- b` (R31). -/
def State.setIoReg (s : State) (b : Byte) : State := { s with ioReg := b }

/-- `LAST_READ <- w ; LAST_VALID <- 1` (R32). -/
def State.setLastRead (s : State) (w : Word) : State := { s with lastRead := w, lastValid := true }

/-- The biquad registers get new values (R34). -/
def State.setBiquad (s : State) (b : Biquad) : State := { s with biq := b }

/-- Fault entry, `raise F(info)` (R232): FAULT takes the record if it is empty, and nothing else changes. -/
def State.raise (s : State) (k : FaultKind) : State :=
  { s with fault := match s.fault with
                    | some r => some r
                    | none => some { kind := k, cp := s.cp } }

/-! ### Progress of a command -/

/-- How far a command has come: it goes on from `s`, or a check failed in the state `s`. -/
inductive Progress where
  | ok (s : State)
  | raised (k : FaultKind) (s : State)
  deriving DecidableEq, Repr

/-- Go on with `f`, unless a check has failed. -/
def Progress.andThen : Progress → (State → Progress) → Progress
  | .ok s, f => f s
  | .raised k s, _ => .raised k s

/-- The outcome of a command: the state it has come to, or that state with the fault recorded (R11, R232). -/
def Progress.outcome : Progress → Host.Outcome State Fault Refusal
  | .ok s => .next s
  | .raised k s => .next (s.raise k)

/-- A check of R98: go on only if `c` holds. -/
def State.guardWith (s : State) (c : Bool) (k : FaultKind) : Progress := if c then .ok s else .raised k s

/-! ### Micro-operations -/

/-- The micro-operations (R120), each with its operand. The waits inside a transaction carry any number of cycles. -/
inductive Uop where
  | setdir (d : Level)
  | drvl (value : Half)
  | drvh (value : Half)
  | samp
  | addr (a : Level)
  | rda
  | rdd
  | wra
  | wrd
  | stba
  | stbd
  | wait (n : Nat)
  | pdelay (n : Nat)
  deriving DecidableEq, Repr

/-- The settle requirement (R265): `some` fault if it is not met. -/
def State.settleCheck (s : State) : Option FaultKind :=
  if s.settle.short then some (.settleViolation s.settle) else none

/-- Step (1) of R120: the requirements of a micro-operation. SAMP checks the direction first (R124). -/
def Uop.check (u : Uop) (s : State) : Option FaultKind :=
  match u with
  | .samp => if s.busOe then some .sampleWhileDriving else s.settleCheck
  | .wra | .wrd | .stbd => s.settleCheck
  | .setdir _ | .drvl _ | .drvh _ | .addr _ | .rda | .rdd | .stba | .wait _ | .pdelay _ => none

/-- Steps (2) and (3) of R120: the writes of a micro-operation with their events, then SETTLE (R121 to R133). -/
def Uop.effect (u : Uop) (s : State) : State :=
  match u with
  | .setdir d => if d then ((s.writeOe false).writePin .dir true).setSettle (.cycles 0)
      else ((s.writePin .dir false).writeOe true).setSettle (.cycles 0)
  | .drvl value => (s.mpinWrite (value.setWidth 32 <<< 8)).setSettle (.cycles 0)
  | .drvh value => (s.mpinWrite (value.setWidth 32)).setSettle (.cycles 0)
  | .samp => s.takeSample
  | .addr a => (s.writePin .addr a).setSettle (.cycles 0)
  | .rda => (s.writePin .lcdRd Config.strobeActive).setSettle (.cycles 0)
  | .rdd => (s.writePin .lcdRd (!Config.strobeActive)).setSettle (.cycles 0)
  | .wra => (s.writePin .lcdWr Config.strobeActive).setSettle (.cycles 0)
  | .wrd => (s.writePin .lcdWr (!Config.strobeActive)).setSettle (.cycles 0)
  | .stba => (s.writePin .ioStb Config.strobeActive).setSettle (.cycles 0)
  | .stbd => (s.writePin .ioStb (!Config.strobeActive)).setSettle (.cycles 0)
  | .wait n => (s.emit (.wait .spin n)).setSettle (s.settle.add n)
  | .pdelay n => (s.emit (.wait .polled n)).setSettle (s.settle.add n)

/-- Steps (1) to (3) of R120. -/
def Uop.run (u : Uop) (s : State) : Progress :=
  match u.check s with
  | some k => .raised k s
  | none => .ok (u.effect s)

/-- A sequence of micro-operations with nothing between them (R150 step (2)). -/
def runUops : List Uop → State → Progress
  | [], s => .ok s
  | u :: us, s => (u.run s).andThen (runUops us)

/-- The micro-operations that write no direction, address or strobe pin (R134). -/
def Uop.keepsPhase (u : Uop) : Bool :=
  match u with
  | .drvl _ | .drvh _ | .samp | .wait _ | .pdelay _ => true
  | .setdir _ | .addr _ | .rda | .rdd | .wra | .wrd | .stba | .stbd => false

/-- PHASE after a primitive command (R134): a write of a direction, address or strobe pin leaves Idle. -/
def Uop.phaseAfter (u : Uop) (p : Phase) : Phase := if u.keepsPhase then p else .idle

/-- A micro-operation issued as a command of its own: R120 with its step (4). -/
def primitive (u : Uop) (s : State) : Progress :=
  (u.run s).andThen fun t => .ok ((t.setPhase (u.phaseAfter t.phase)).advance 1)

end Sys2Proof.Machine
end

