-- ==== Sys2Proof/Machine/Bus.lean ====
section
/-!
DEFINITION. The thirteen bus primitives as commands (40_bus_primitives.md rules R121 to R133).
-/
namespace Sys2Proof.Machine

/-- SETDIR (R121). -/
def execSetdir (d : Level) (s : State) : Host.Outcome State Fault Refusal := (primitive (.setdir d) s).outcome

/-- DRVL (R122). -/
def execDrvl (value : Half) (s : State) : Host.Outcome State Fault Refusal := (primitive (.drvl value) s).outcome

/-- DRVH (R123). -/
def execDrvh (value : Half) (s : State) : Host.Outcome State Fault Refusal := (primitive (.drvh value) s).outcome

/-- SAMP (R124): the sampled byte is also the response. -/
def execSamp (s : State) : Host.Outcome State Fault Refusal :=
  ((primitive .samp s).andThen fun t => .ok (t.push (respByte s.sampleByte))).outcome

/-- ADDR (R125). -/
def execAddr (a : Level) (s : State) : Host.Outcome State Fault Refusal := (primitive (.addr a) s).outcome

/-- RDA (R126). -/
def execRda (s : State) : Host.Outcome State Fault Refusal := (primitive .rda s).outcome

/-- RDD (R127). -/
def execRdd (s : State) : Host.Outcome State Fault Refusal := (primitive .rdd s).outcome

/-- WRA (R128). -/
def execWra (s : State) : Host.Outcome State Fault Refusal := (primitive .wra s).outcome

/-- WRD (R129). -/
def execWrd (s : State) : Host.Outcome State Fault Refusal := (primitive .wrd s).outcome

/-- STBA (R130). -/
def execStba (s : State) : Host.Outcome State Fault Refusal := (primitive .stba s).outcome

/-- STBD (R131). -/
def execStbd (s : State) : Host.Outcome State Fault Refusal := (primitive .stbd s).outcome

/-- WAIT (R132). -/
def execWait (n : Half) (s : State) : Host.Outcome State Fault Refusal := (primitive (.wait n.toNat) s).outcome

/-- PDELAY (R133). -/
def execPdelay (n : Half) (s : State) : Host.Outcome State Fault Refusal := (primitive (.pdelay n.toNat) s).outcome

end Sys2Proof.Machine
end

