-- ==== Sys2Proof/Machine/Lcd.lean ====
section
/-!
DEFINITION. The LCD transactions (41_lcd_transactions.md rules R150 to R159).
-/
namespace Sys2Proof.Machine

/-- One write pulse after the byte has been latched: wait, assert, wait, deassert (R150 step (4), R151, R152). -/
def writePulse : List Uop := [.wait Config.wSetup, .wra, .wait Config.wSetup, .wrd]

/-- The requirement of a fast-path write (R33, R152). -/
def requireDataPhase (s : State) : Progress := s.guardWith s.phase.writable (.phaseViolation s.phase)

/-- The requirement of an LCD read (R33, R158). -/
def requireReadable (s : State) : Progress := s.guardWith s.phase.readable (.phaseViolation s.phase)

/-- One data write (R152): the ten micro-operations and the event LcdWrite. -/
def dataWrite (value : Half) (s : State) : Progress :=
  (runUops (.drvh value :: writePulse ++ .drvl value :: writePulse) s).andThen fun t =>
    .ok (t.emit (.lcdWrite true (highByte value) (lowByte value)))

/-- Data writes one after the other, with nothing between them (R154, R155). -/
def dataWrites : List Half → State → Progress
  | [], s => .ok s
  | v :: vs, s => (dataWrite v s).andThen (dataWrites vs)

/-- A fast-path command: nothing is required and nothing is done for no data (R154). `len` is its length in words. -/
def fastWrite (values : List Half) (len : Nat) (s : State) : Progress :=
  (if values.isEmpty then .ok s else requireDataPhase s).andThen fun t =>
    (dataWrites values t).andThen fun u => .ok (u.advance len)

/-- A read transaction (R158, R159) with the given waits and profile: two samples under one read-strobe pulse. -/
def readTransaction (profile : Profile) (waitHi waitLo : Uop) (s : State) : Progress :=
  (requireReadable s).andThen fun s0 =>
  (runUops [.setdir true] s0).andThen fun s1 =>
  (runUops [.rda, waitHi] (s1.setPhase .readPhase)).andThen fun s2 =>
  (runUops [.samp, .rdd, waitLo] s2).andThen fun s3 =>
  (runUops [.samp] s3).andThen fun s4 =>
    .ok (((s4.emit (.lcdRead profile s2.sampleByte s3.sampleByte)).push
      (respPair s2.sampleByte s3.sampleByte)).advance 1)

/-- LCMD (R151). -/
def execLcmd (cmd : Byte) (s : State) : Host.Outcome State Fault Refusal :=
  ((runUops [.drvh 0x0000#16, .setdir false, .addr false] s).andThen fun s1 =>
   (runUops (writePulse ++ .drvl (byteValue cmd) :: writePulse) (s1.setPhase .commandPhase)).andThen fun s2 =>
   (runUops [.addr true] (s2.emit (.lcdWrite false 0x00#8 cmd))).andThen fun s3 =>
     .ok ((s3.setPhase .dataPhase).advance 1)).outcome

/-- LDAT (R152). -/
def execLdat (value : Half) (s : State) : Host.Outcome State Fault Refusal := (fastWrite [value] 1 s).outcome

/-- LPIX (R153). -/
def execLpix (color : Half) (s : State) : Host.Outcome State Fault Refusal := (fastWrite [color] 1 s).outcome

/-- LPIXR (R154). -/
def execLpixr (color : Half) (count : Word) (s : State) : Host.Outcome State Fault Refusal :=
  (fastWrite (List.replicate count.toNat color) 2 s).outcome

/-- LPIXA (R155). -/
def execLpixa (elems : List Half) (s : State) : Host.Outcome State Fault Refusal :=
  (fastWrite elems (2 + elems.length) s).outcome

/-- LWRD (R156). -/
def execLwrd (word : Half) (s : State) : Host.Outcome State Fault Refusal := (fastWrite [word] 1 s).outcome

/-- LWRDA (R157). -/
def execLwrda (elems : List Half) (s : State) : Host.Outcome State Fault Refusal :=
  (fastWrite elems (2 + elems.length) s).outcome

/-- LRDID (R158): the short profile waits with the inline spin. -/
def execLrdid (s : State) : Host.Outcome State Fault Refusal :=
  (readTransaction .id (.wait (wIdHi s.cfg)) (.wait (wIdLo s.cfg)) s).outcome

/-- LRDFM (R159): the long profile waits with the polled delay. -/
def execLrdfm (s : State) : Host.Outcome State Fault Refusal :=
  (readTransaction .fm (.pdelay (wFmHi s.cfg)) (.pdelay (wFmLo s.cfg)) s).outcome

end Sys2Proof.Machine
end

