-- ==== Sys2Proof/Machine/Biquad.lean ====
section
/-!
DEFINITION. The arithmetic of the squelch unit (43_squelch.md rules R201 to R205), on mathematical integers.
-/
namespace Sys2Proof.Machine

/-- The accumulator of a biquad step (R201): the exact sum of the five exact products. -/
def biquadAcc (c : Coef) (b : Biquad) (x : Half) : Int :=
  c.b0.toInt * x.toInt + c.b1.toInt * b.x1.toInt + c.b2.toInt * b.x2.toInt
    - c.a1.toInt * b.y1.toInt - c.a2.toInt * b.y2.toInt

/-- `(acc + 2^(F-1)) >> F`: the floor shift rounds half up (R202). -/
def roundShift (acc : Int) : Int := (acc + 2 ^ (Config.bqFrac - 1)) / 2 ^ Config.bqFrac

/-- `sat16` (R201): saturation to the signed 16-bit range. -/
def sat16 (v : Int) : Int := if v < -32768 then -32768 else if 32767 < v then 32767 else v

/-- The output `y` of a biquad step, as a 16-bit pattern (R201). -/
def biquadOut (c : Coef) (b : Biquad) (x : Half) : Half := BitVec.ofInt 16 (sat16 (roundShift (biquadAcc c b x)))

/-- `BQstep(x)` (R201): all four registers are read before any is written. -/
def biquadStep (c : Coef) (b : Biquad) (x : Half) : Biquad :=
  { x1 := x, x2 := b.x1, y1 := biquadOut c b x, y2 := b.y1 }

/-- The registers after a block (R203). -/
def biquadBlock (c : Coef) : Biquad → List Half → Biquad
  | b, [] => b
  | b, x :: xs => biquadBlock c (biquadStep c b x) xs

/-- The outputs of a block, in order (R203). -/
def biquadOutputs (c : Coef) : Biquad → List Half → List Half
  | _, [] => []
  | b, x :: xs => biquadOut c b x :: biquadOutputs c (biquadStep c b x) xs

/-- `|y|` (R204), exact: `|-32768| = 32768`. -/
def absOf (y : Half) : Nat := y.toInt.natAbs

/-- The energy measure of a block's outputs (R204). -/
def measureOf (m : Measure) (ys : List Half) : Nat :=
  match m with
  | .peakSq => (ys.map fun y => absOf y * absOf y).foldr max 0
  | .sumSq => (ys.map fun y => absOf y * absOf y).foldr (· + ·) 0
  | .sumAbs => (ys.map absOf).foldr (· + ·) 0

/-- The limit, in the measure's own unit (R204). -/
def limitOf (m : Measure) : Nat :=
  match m with
  | .peakSq => Config.sqThreshold * Config.sqThreshold
  | .sumSq => Config.sqThreshold * Config.sqThreshold
  | .sumAbs => Config.sqThreshold

/-- The classification of a block's outputs (R203, R205): `below xor SQ_INVERT`, with a strict comparison. -/
def classify (p : Params) (ys : List Half) : Level :=
  (decide (measureOf p.sqMeasure ys < limitOf p.sqMeasure)) ^^ p.sqInvert

end Sys2Proof.Machine
end

