-- ==== Sys2Proof/Machine/Squelch.lean ====
section
/-!
DEFINITION. The two squelch commands (43_squelch.md rules R201 and R203).
-/
namespace Sys2Proof.Machine

/-- BQF (R201). -/
def execBqf (sample : Half) (s : State) : Host.Outcome State Fault Refusal :=
  .next (((s.setBiquad (biquadStep s.cfg.bqCoef s.biq sample)).push
    (respSample (biquadOut s.cfg.bqCoef s.biq sample))).advance 1)

/-- SQX (R203). Decode refuses a block longer than SQ_N before this is reached; the check stands here too because
rule R203 lists it (log entry 15). -/
def execSqx (samples : List Half) (s : State) : Host.Outcome State Fault Refusal :=
  ((s.guardWith (samples.length ≤ Config.sqN) (.lengthMismatch samples.length)).andThen fun t =>
    .ok (((t.setBiquad (biquadBlock t.cfg.bqCoef t.biq samples)).push
      (respLevel (classify t.cfg (biquadOutputs t.cfg.bqCoef t.biq samples)))).advance (1 + samples.length))).outcome

end Sys2Proof.Machine
end

