-- ==== Sys2Proof/Machine/Touch.lean ====
section
/-!
DEFINITION. The touch and input transactions (42_touch_input.md rules R180 to R183).
-/
namespace Sys2Proof.Machine

/-- IORD (R181). -/
def execIord (s : State) : Host.Outcome State Fault Refusal :=
  ((runUops [.stba, .setdir true, .addr false, .wait Config.wSetup] s).andThen fun s1 =>
   (runUops [.samp, .stbd] s1).andThen fun s2 =>
     .ok ((((s2.emit (.ioRead s1.sampleByte)).setLastRead (respByte s1.sampleByte)).setPhase .idle).push
       (respByte s1.sampleByte) |>.advance 1)).outcome

/-- The response of TCFG (R182): LAST_READ once an IORD has completed, before that a free word. -/
def pushLastRead (s : State) : State :=
  if s.lastValid then s.push s.lastRead else s.takeWord.push s.env.wordAnswer

/-- TCFG (R182); the operand check is the last of decode (R98, R102). -/
def execTcfg (config : Byte) (s : State) : Host.Outcome State Fault Refusal :=
  ((s.guardWith (legalTouchByte s.cfg config) (.illegalTouchConfig config)).andThen fun s0 =>
   (runUops [.drvl (byteValue config), .setdir false, .addr true, .wait Config.wSetup, .stba,
      .wait Config.wSetup, .stbd] s0).andThen fun s1 =>
     .ok ((pushLastRead (((s1.emit (.ioWrite true config)).setIoReg config).setPhase .idle)).advance 1)).outcome

/-- ROTA (R183): the response is the level the environment drives. -/
def execRota (s : State) : Host.Outcome State Fault Refusal :=
  .next ((s.takeRotA.push (respLevel s.env.rotAnswer)).advance 1)

end Sys2Proof.Machine
end

