-- ==== Sys2Proof/Machine/Dispatch.lean ====
section
/-!
DEFINITION. One arm per constructor of Instr, each one direct call of its meaning.
-/
namespace Sys2Proof.Machine

def exec (i : Instr) (s : State) : Host.Outcome State Fault Refusal :=
  match i with
  | .setdir d => Sys2Proof.Machine.execSetdir d s
  | .drvl value => Sys2Proof.Machine.execDrvl value s
  | .drvh value => Sys2Proof.Machine.execDrvh value s
  | .samp => Sys2Proof.Machine.execSamp s
  | .addr a => Sys2Proof.Machine.execAddr a s
  | .rda => Sys2Proof.Machine.execRda s
  | .rdd => Sys2Proof.Machine.execRdd s
  | .wra => Sys2Proof.Machine.execWra s
  | .wrd => Sys2Proof.Machine.execWrd s
  | .stba => Sys2Proof.Machine.execStba s
  | .stbd => Sys2Proof.Machine.execStbd s
  | .wait n => Sys2Proof.Machine.execWait n s
  | .pdelay n => Sys2Proof.Machine.execPdelay n s
  | .lcmd cmd => Sys2Proof.Machine.execLcmd cmd s
  | .ldat value => Sys2Proof.Machine.execLdat value s
  | .lpix color => Sys2Proof.Machine.execLpix color s
  | .lpixr color count => Sys2Proof.Machine.execLpixr color count s
  | .lpixa elems => Sys2Proof.Machine.execLpixa elems s
  | .lwrd word => Sys2Proof.Machine.execLwrd word s
  | .lwrda elems => Sys2Proof.Machine.execLwrda elems s
  | .lrdid => Sys2Proof.Machine.execLrdid s
  | .lrdfm => Sys2Proof.Machine.execLrdfm s
  | .iord => Sys2Proof.Machine.execIord s
  | .tcfg config => Sys2Proof.Machine.execTcfg config s
  | .rota => Sys2Proof.Machine.execRota s
  | .sqx samples => Sys2Proof.Machine.execSqx samples s
  | .bqf sample => Sys2Proof.Machine.execBqf sample s

end Sys2Proof.Machine
end

