-- ==== Sys2Proof/WellFormed.lean ====
section
/-!
DEFINITION. Which terms of `Instr` are commands the encoding can carry: an array's length fits its 32-bit count word
(30_encoding.md rule R92) and a sample block has at most SQ_N samples (rule R93). The legal bytes of TCFG depend on
the parameter TOUCH_ENC and are checked by its meaning (rule R102), as the last check of decode.
-/
namespace Sys2Proof

/-- The command has an encoding. -/
def Instr.wellFormed : Instr → Bool
  | .lpixa elems => elems.length < 2 ^ 32
  | .lwrda elems => elems.length < 2 ^ 32
  | .sqx samples => samples.length ≤ Config.sqN
  | .setdir _ | .drvl _ | .drvh _ | .samp | .addr _ | .rda | .rdd | .wra | .wrd | .stba | .stbd | .wait _
    | .pdelay _ | .lcmd _ | .ldat _ | .lpix _ | .lpixr _ _ | .lwrd _ | .lrdid | .lrdfm | .iord | .tcfg _
    | .rota | .bqf _ => true

end Sys2Proof
end

