-- ==== Sys2Proof/Decode.lean ====
section
/-!
DEFINITION. Decoding and encoding (30_encoding.md rules R90 to R98). `decode` is total on any list of words and makes
the checks (1) to (5) of rule R98 in their order; the checks (6) and (7) need the parameters and PHASE and are made by
the meanings. `opcodeTable` is the machine-readable copy of rule R95, against which the decoder is stated.
-/
namespace Sys2Proof

/-! ### Fields of a head word (R90) -/

/-- `op`, bits 31:24. -/
def opField (w : Word) : Byte := w.extractLsb' 24 8

/-- `aux`, bits 23:16. -/
def auxField (w : Word) : Byte := w.extractLsb' 16 8

/-- `imm`, bits 15:0; also the element of an element or sample word (R92, R93). -/
def immField (w : Word) : Half := w.extractLsb' 0 16

/-- Bits 31:16, which must be 0 in an element or sample word (R96 item 4). -/
def upperField (w : Word) : Half := w.extractLsb' 16 16

/-- A head word from its three fields. -/
def packHead (op aux : Byte) (imm : Half) : Word := op ++ (aux ++ imm)

/-! ### Decoding -/

/-- Why a list of words is no command. -/
inductive DecodeError where
  /-- IllegalCommand with the offending word (R96). -/
  | illegalCommand (w : Word)
  /-- LengthMismatch with the length SQX asks for (R207). -/
  | lengthMismatch (len : Nat)
  /-- TruncatedCommand; `missing` is the index of the first missing word, counted from the head word (R67). -/
  | truncated (missing : Nat)
  deriving DecidableEq, Repr

/-- What decoding answers: a command with the words after it, or why there is none. -/
inductive Decoded where
  | ok (i : Instr) (rest : List Word)
  | bad (e : DecodeError)
  deriving DecidableEq, Repr

/-- A legal head word: a whole command of format S, or the head of a longer one. -/
inductive Head where
  | single (i : Instr)
  | lpixr (color : Half)
  | lpixa
  | lwrda
  | sqx (len : Byte)
  deriving DecidableEq, Repr

/-- A command with no operand: every bit of `imm` is reserved (R96 item 3). -/
def noOperand (imm : Half) (h : Head) : Option Head := if imm = 0#16 then some h else none

/-- A one-bit operand in `imm[0]`; `imm[15:1]` is reserved. -/
def bitOperand (imm : Half) (mk : Level → Instr) : Option Head :=
  if imm.extractLsb' 1 15 = 0#15 then some (.single (mk (imm.getLsbD 0))) else none

/-- A byte operand in `imm[7:0]`; `imm[15:8]` is reserved. -/
def byteOperand (imm : Half) (mk : Byte → Instr) : Option Head :=
  if imm.extractLsb' 8 8 = 0#8 then some (.single (mk (imm.extractLsb' 0 8))) else none

/-- The commands whose `aux` must be 0: all but SQX (R96 item 2). -/
def decodeImm (op : Byte) (imm : Half) : Option Head :=
  match op with
  | 0x01#8 => bitOperand imm .setdir
  | 0x02#8 => some (.single (.drvl imm))
  | 0x03#8 => some (.single (.drvh imm))
  | 0x04#8 => noOperand imm (.single .samp)
  | 0x05#8 => bitOperand imm .addr
  | 0x06#8 => noOperand imm (.single .rda)
  | 0x07#8 => noOperand imm (.single .rdd)
  | 0x08#8 => noOperand imm (.single .wra)
  | 0x09#8 => noOperand imm (.single .wrd)
  | 0x0A#8 => noOperand imm (.single .stba)
  | 0x0B#8 => noOperand imm (.single .stbd)
  | 0x0C#8 => some (.single (.wait imm))
  | 0x0D#8 => some (.single (.pdelay imm))
  | 0x10#8 => byteOperand imm .lcmd
  | 0x11#8 => some (.single (.ldat imm))
  | 0x12#8 => some (.single (.lpix imm))
  | 0x13#8 => some (.lpixr imm)
  | 0x14#8 => noOperand imm .lpixa
  | 0x15#8 => some (.single (.lwrd imm))
  | 0x16#8 => noOperand imm .lwrda
  | 0x17#8 => noOperand imm (.single .lrdid)
  | 0x18#8 => noOperand imm (.single .lrdfm)
  | 0x20#8 => noOperand imm (.single .iord)
  | 0x21#8 => byteOperand imm .tcfg
  | 0x22#8 => noOperand imm (.single .rota)
  | 0x31#8 => some (.single (.bqf imm))
  | _ => none

/-- Check (2) of R98: match `op`, check `aux` and the reserved `imm` bits. `none` is an illegal head word. -/
def decodeHead (w : Word) : Option Head :=
  if opField w = 0x30#8 then noOperand (immField w) (.sqx (auxField w))
  else if auxField w = 0#8 then decodeImm (opField w) (immField w)
  else none

/-- What reading `n` element or sample words answers. -/
inductive Elements where
  | ok (elems : List Half) (rest : List Word)
  | bad (e : DecodeError)
  deriving DecidableEq, Repr

/-- Checks (4) and (5) of R98 on `n` element words that follow `before` words of the command: all inside the stream,
else TruncatedCommand; then bits 31:16 of each 0, else IllegalCommand with the first offending word. -/
def takeElements (n before : Nat) (ws : List Word) : Elements :=
  if ws.length < n then .bad (.truncated (before + ws.length))
  else
    match (ws.take n).find? (fun w => upperField w != 0#16) with
    | some w => .bad (.illegalCommand w)
    | none => .ok ((ws.take n).map immField) (ws.drop n)

/-- A command of format A from the words after its head word (R92). -/
def decodeArray (mk : List Half → Instr) : List Word → Decoded
  | [] => .bad (.truncated 1)
  | count :: ws =>
    match takeElements count.toNat 2 ws with
    | .ok elems rest => .ok (mk elems) rest
    | .bad e => .bad e

/-- SQX from its length and the words after its head word (R93): the length is checked before the stream (R98). -/
def decodeSamples (len : Nat) (ws : List Word) : Decoded :=
  if Config.sqN < len then .bad (.lengthMismatch len)
  else
    match takeElements len 1 ws with
    | .ok elems rest => .ok (.sqx elems) rest
    | .bad e => .bad e

/-- The rest of a command whose head word is legal. -/
def decodeTail : Head → List Word → Decoded
  | .single i, ws => .ok i ws
  | .lpixr _, [] => .bad (.truncated 1)
  | .lpixr color, count :: ws => .ok (.lpixr color count) ws
  | .lpixa, ws => decodeArray .lpixa ws
  | .lwrda, ws => decodeArray .lwrda ws
  | .sqx len, ws => decodeSamples len.toNat ws

/-- Decode the command that starts a list of words. On the empty list even the head word is missing. -/
def decode : List Word → Decoded
  | [] => .bad (.truncated 0)
  | w :: ws =>
    match decodeHead w with
    | none => .bad (.illegalCommand w)
    | some h => decodeTail h ws

/-! ### Encoding -/

/-- A level as the immediate of SETDIR and ADDR. -/
def bitImm (b : Level) : Half := if b then 1#16 else 0#16

/-- A byte as the immediate of LCMD and TCFG. -/
def byteImm (b : Byte) : Half := b.setWidth 16

/-- An element or sample word: bits 31:16 zero (R66). -/
def elementWord (e : Half) : Word := e.setWidth 32

/-- The words of a command (R90 to R95). -/
def encode : Instr → List Word
  | .setdir d => [packHead 0x01#8 0#8 (bitImm d)]
  | .drvl value => [packHead 0x02#8 0#8 value]
  | .drvh value => [packHead 0x03#8 0#8 value]
  | .samp => [packHead 0x04#8 0#8 0#16]
  | .addr a => [packHead 0x05#8 0#8 (bitImm a)]
  | .rda => [packHead 0x06#8 0#8 0#16]
  | .rdd => [packHead 0x07#8 0#8 0#16]
  | .wra => [packHead 0x08#8 0#8 0#16]
  | .wrd => [packHead 0x09#8 0#8 0#16]
  | .stba => [packHead 0x0A#8 0#8 0#16]
  | .stbd => [packHead 0x0B#8 0#8 0#16]
  | .wait n => [packHead 0x0C#8 0#8 n]
  | .pdelay n => [packHead 0x0D#8 0#8 n]
  | .lcmd cmd => [packHead 0x10#8 0#8 (byteImm cmd)]
  | .ldat value => [packHead 0x11#8 0#8 value]
  | .lpix color => [packHead 0x12#8 0#8 color]
  | .lpixr color count => [packHead 0x13#8 0#8 color, count]
  | .lpixa elems => packHead 0x14#8 0#8 0#16 :: BitVec.ofNat 32 elems.length :: elems.map elementWord
  | .lwrd word => [packHead 0x15#8 0#8 word]
  | .lwrda elems => packHead 0x16#8 0#8 0#16 :: BitVec.ofNat 32 elems.length :: elems.map elementWord
  | .lrdid => [packHead 0x17#8 0#8 0#16]
  | .lrdfm => [packHead 0x18#8 0#8 0#16]
  | .iord => [packHead 0x20#8 0#8 0#16]
  | .tcfg config => [packHead 0x21#8 0#8 (byteImm config)]
  | .rota => [packHead 0x22#8 0#8 0#16]
  | .sqx samples => packHead 0x30#8 (BitVec.ofNat 8 samples.length) 0#16 :: samples.map elementWord
  | .bqf sample => [packHead 0x31#8 0#8 sample]

/-! ### The opcode table (R95, spec/opcode_table.json) -/

/-- A row of the opcode table: a head word `w` selects it when `w &&& mask = pattern`. -/
structure OpcodeRow where
  mnemonic : String
  mask : Word
  pattern : Word
  deriving DecidableEq, Repr

/-- The rows of the primitives, 40_bus_primitives.md. -/
def opcodeTableBus : List OpcodeRow :=
  [ ⟨"SETDIR", 0xFFFFFFFE#32, 0x01000000#32⟩, ⟨"DRVL", 0xFFFF0000#32, 0x02000000#32⟩,
    ⟨"DRVH", 0xFFFF0000#32, 0x03000000#32⟩, ⟨"SAMP", 0xFFFFFFFF#32, 0x04000000#32⟩,
    ⟨"ADDR", 0xFFFFFFFE#32, 0x05000000#32⟩, ⟨"RDA", 0xFFFFFFFF#32, 0x06000000#32⟩,
    ⟨"RDD", 0xFFFFFFFF#32, 0x07000000#32⟩, ⟨"WRA", 0xFFFFFFFF#32, 0x08000000#32⟩,
    ⟨"WRD", 0xFFFFFFFF#32, 0x09000000#32⟩, ⟨"STBA", 0xFFFFFFFF#32, 0x0A000000#32⟩,
    ⟨"STBD", 0xFFFFFFFF#32, 0x0B000000#32⟩, ⟨"WAIT", 0xFFFF0000#32, 0x0C000000#32⟩,
    ⟨"PDELAY", 0xFFFF0000#32, 0x0D000000#32⟩ ]

/-- The rows of the transactions and of the squelch unit, 41_lcd_transactions.md to 43_squelch.md. -/
def opcodeTableRest : List OpcodeRow :=
  [ ⟨"LCMD", 0xFFFFFF00#32, 0x10000000#32⟩, ⟨"LDAT", 0xFFFF0000#32, 0x11000000#32⟩,
    ⟨"LPIX", 0xFFFF0000#32, 0x12000000#32⟩, ⟨"LPIXR", 0xFFFF0000#32, 0x13000000#32⟩,
    ⟨"LPIXA", 0xFFFFFFFF#32, 0x14000000#32⟩, ⟨"LWRD", 0xFFFF0000#32, 0x15000000#32⟩,
    ⟨"LWRDA", 0xFFFFFFFF#32, 0x16000000#32⟩, ⟨"LRDID", 0xFFFFFFFF#32, 0x17000000#32⟩,
    ⟨"LRDFM", 0xFFFFFFFF#32, 0x18000000#32⟩, ⟨"IORD", 0xFFFFFFFF#32, 0x20000000#32⟩,
    ⟨"TCFG", 0xFFFFFF00#32, 0x21000000#32⟩, ⟨"ROTA", 0xFFFFFFFF#32, 0x22000000#32⟩,
    ⟨"SQX", 0xFF00FFFF#32, 0x30000000#32⟩, ⟨"BQF", 0xFFFF0000#32, 0x31000000#32⟩ ]

/-- The opcode table, 27 rows. -/
def opcodeTable : List OpcodeRow := opcodeTableBus ++ opcodeTableRest

/-- The head word selects the row (R95). -/
def OpcodeRow.selects (r : OpcodeRow) (w : Word) : Bool := (w &&& r.mask) == r.pattern

/-- The mnemonic of a command, as the opcode table spells it. -/
def Instr.mnemonic : Instr → String
  | .setdir _ => "SETDIR"
  | .drvl _ => "DRVL"
  | .drvh _ => "DRVH"
  | .samp => "SAMP"
  | .addr _ => "ADDR"
  | .rda => "RDA"
  | .rdd => "RDD"
  | .wra => "WRA"
  | .wrd => "WRD"
  | .stba => "STBA"
  | .stbd => "STBD"
  | .wait _ => "WAIT"
  | .pdelay _ => "PDELAY"
  | .lcmd _ => "LCMD"
  | .ldat _ => "LDAT"
  | .lpix _ => "LPIX"
  | .lpixr _ _ => "LPIXR"
  | .lpixa _ => "LPIXA"
  | .lwrd _ => "LWRD"
  | .lwrda _ => "LWRDA"
  | .lrdid => "LRDID"
  | .lrdfm => "LRDFM"
  | .iord => "IORD"
  | .tcfg _ => "TCFG"
  | .rota => "ROTA"
  | .sqx _ => "SQX"
  | .bqf _ => "BQF"

/-- The mnemonic a legal head word stands for. -/
def Head.mnemonic : Head → String
  | .single i => i.mnemonic
  | .lpixr _ => "LPIXR"
  | .lpixa => "LPIXA"
  | .lwrda => "LWRDA"
  | .sqx _ => "SQX"

/-! ### The host's view of a table word -/

/-- The words of an instruction whose bits are `w`, bit 0 the least significant of the first word, with operand words
of zeros after them (enough for the longest block of SQX). -/
def tableWords (nbits w : Nat) : List Word :=
  (List.range (max 1 ((nbits + 31) / 32))).map (fun k => BitVec.ofNat 32 (w / 2 ^ (32 * k)))
    ++ List.replicate (Config.sqN + 1) 0#32

/-- The instruction the decoder reads from the table word `w`. -/
def decodeTableWord (nbits w : Nat) : Option Instr :=
  match decode (tableWords nbits w) with
  | .ok i _ => some i
  | .bad _ => none

end Sys2Proof
end

