-- ==== Sys2Proof/Machine/Fetch.lean ====
section
/-!
DEFINITION. Fetching the next command from the command stream (10_state.md rule R37, 30_encoding.md rule R98), and
placing one there for the host.
-/
namespace Sys2Proof.Machine

/-- What fetch and decode find at CP. -/
inductive Fetched where
  | command (i : Instr)
  | illegal (k : FaultKind)
  | ended
  | outside
  deriving DecidableEq, Repr

/-- A decode error as the fault it raises: the index of a missing word counts from the start of CS (R231). -/
def faultOf (cp : Nat) : DecodeError → FaultKind
  | .illegalCommand w => .illegalCommand w
  | .lengthMismatch len => .lengthMismatch len
  | .truncated missing => .truncatedCommand (cp + missing)

/-- Checks (1) to (5) of R98 at CP. -/
def State.fetch (s : State) : Fetched :=
  if s.cp = s.cs.length then .ended
  else if s.cs.length < s.cp then .outside
  else
    match decode (s.cs.drop s.cp) with
    | .ok i _ => .command i
    | .bad e => .illegal (faultOf s.cp e)

/-- The stream with the words `ws` at CP. A stream that ends before CP is filled up with zeros. -/
def State.placeWords (s : State) (ws : List Word) : State :=
  { s with
    cs := s.cs.take s.cp ++ List.replicate (s.cp - s.cs.length) 0#32 ++ ws ++ s.cs.drop (s.cp + ws.length),
    fault := none }

end Sys2Proof.Machine
end

