-- ==== Sys2Proof/Machine/Step.lean ====
section
/-!
DEFINITION. One step of the machine: no step from a state with FAULT set (10_state.md rule R41) or at the end of the
stream (70_reset_and_hazards.md rule R263); else fetch, decode, and run the command (00_scope.md rule R11).
-/
namespace Sys2Proof.Machine

/-- One step. A command that cannot be decoded is a fault entry (R232). -/
def step (s : State) : Host.Outcome State Fault Refusal :=
  match s.fault with
  | some r => .fault (.halted r)
  | none =>
    match s.fetch with
    | .command i => exec i s
    | .illegal k => .next (s.raise k)
    | .ended => .refused .endOfRun
    | .outside => .refused .cpOutsideStream

/-- The state with the table word `w` and operand words of zeros placed at CP, so that the next step runs it. FAULT is
emptied, since a state with FAULT set takes no step. This stands for the host's loading of CS (log entry 1). -/
def State.withFetchWord (s : State) (nbits w : Nat) : State := s.placeWords (tableWords nbits w)

end Sys2Proof.Machine
end

