-- ==== Sys2Proof/Safety.lean ====
section
/-!
DEFINITION. What counts as a safe state (10_state.md rules R33, R42, 42_touch_input.md rule R185), which parameter
records the spec allows (00_scope.md rule R7), and the terms claims about the event history use.
-/
namespace Sys2Proof.Machine

/-! ### Legal parameters -/

/-- The constraint of R7 on the four read waits: each is at least W_SETUP. -/
def waitsLegal (p : Params) : Prop :=
  Config.wSetup ≤ wIdHi p ∧ Config.wSetup ≤ wIdLo p ∧ Config.wSetup ≤ wFmHi p ∧ Config.wSetup ≤ wFmLo p

/-- The output-enable bits of a touch byte in the layout of R43, bits 7:4. -/
def touchEnables (b : Byte) : BitVec 4 := b.extractLsb' 4 4

/-- The data bits of a touch byte in the layout of R43, bits 3:0. -/
def touchData (b : Byte) : BitVec 4 := b.extractLsb' 0 4

/-- How many of the four bits are 1. -/
def onesOf (n : BitVec 4) : Nat :=
  ((List.range 4).map fun k => if n.getLsbD k then 1 else 0).foldr (· + ·) 0

/-- The constraints of R43 on TOUCH_ENC, in the layout of its table: the five bytes are distinct, Float enables no
line, WaitTouch enables exactly two. DESIGN CHOICE (log entry 22): State.cfg may hold a record that breaks them, TCFG then
runs with its bytes, and this predicate is no part of `Inv`. -/
def touchEncLegal (p : Params) : Prop :=
  (allTouchConfigs.map (touchByte p)).Nodup ∧ touchEnables p.touchEnc.float = 0#4 ∧
    onesOf (touchEnables p.touchEnc.waitTouch) = 2

/-! ### Safe states -/

/-- The no-contention invariant (R42). -/
def noContention (s : State) : Prop := ¬ (s.busOe = true ∧ s.pins.dir = true)

/-- What PHASE guarantees of the pins at a command boundary (R33), less the strobes that R268 says it does not track
(P_LCD_RD in DataPhase, P_IO_STB in both). CommandPhase never stands at a command boundary. -/
def phaseGuarantee (s : State) : Prop :=
  match s.phase with
  | .idle => True
  | .commandPhase => False
  | .dataPhase => s.pins.dir = false ∧ s.busOe = true ∧ s.pins.addr = true ∧ s.pins.lcdWr = !Config.strobeActive
  | .readPhase => s.pins.dir = true ∧ s.busOe = false ∧ s.pins.addr = true ∧ s.pins.lcdWr = !Config.strobeActive ∧
      s.pins.lcdRd = !Config.strobeActive

/-- The invariant of the machine at command boundaries. -/
structure Inv (s : State) : Prop where
  /-- R7: the parameters are legal. -/
  waits : waitsLegal s.cfg
  /-- R28: BUS_MASK holds its constant. -/
  mask : s.busMask = Config.busMaskReset
  /-- R42: no contention. -/
  contention : noContention s
  /-- R33: the phase guarantees. -/
  phase : phaseGuarantee s
  /-- R37, R263: CP stays in the stream. -/
  cp : s.cp ≤ s.cs.length
  /-- R32, D40: a valid LAST_READ is a zero-extended byte. -/
  lastRead : s.lastValid = true → s.lastRead.toNat < 256
  /-- R31, R185: IO_REG holds its reset value or one of the five legal bytes. -/
  ioReg : s.ioReg = s.cfg.ioRegReset ∨ legalTouchByte s.cfg s.ioReg = true

/-! ### The bus as the far side sees it -/

/-- The bus-facing state of R135. -/
structure BusFacing where
  dir : Level
  busOe : Level
  outLatch : Byte
  addr : Level
  lcdRd : Level
  lcdWr : Level
  ioStb : Level
  deriving DecidableEq, Repr

/-- The bus-facing part of a state (R135). -/
def busFacing (s : State) : BusFacing :=
  { dir := s.pins.dir, busOe := s.busOe, outLatch := s.outLatch, addr := s.pins.addr, lcdRd := s.pins.lcdRd,
    lcdWr := s.pins.lcdWr, ioStb := s.pins.ioStb }

/-! ### What the environment cannot reach -/

/-- Two states that agree in all that no answer of the environment reaches (R75): everything but the answers themselves,
the two input lines, LAST_READ, and what the words of RESP and the events of EV hold. -/
structure AgreeButAnswers (s t : State) : Prop where
  cs : t.cs = s.cs
  cfg : t.cfg = s.cfg
  bus : busFacing t = busFacing s
  busMask : t.busMask = s.busMask
  ioReg : t.ioReg = s.ioReg
  lastValid : t.lastValid = s.lastValid
  phase : t.phase = s.phase
  biq : t.biq = s.biq
  cp : t.cp = s.cp
  resp : t.resp.length = s.resp.length
  ev : t.ev.length = s.ev.length
  settle : t.settle = s.settle
  fault : t.fault = s.fault

/-! ### Expected event sequences -/

/-- The level of a deasserted strobe (R22). -/
def deasserted : Level := !Config.strobeActive

/-- The four events of one write pulse, P_LCD_WR being at `old` before it (R151, R152). -/
def pulseEvents (old : Level) : List Event :=
  [.wait .spin Config.wSetup, .pinW .lcdWr old Config.strobeActive,
   .wait .spin Config.wSetup, .pinW .lcdWr Config.strobeActive deasserted]

/-- The eleven events of a data write of `v`, from the latch and the level of P_LCD_WR before it (R152). -/
def dataWriteEvents (latch : Byte) (wr : Level) (v : Half) : List Event :=
  [.latchW latch (highByte v)] ++ pulseEvents wr ++ [.latchW (highByte v) (lowByte v)] ++ pulseEvents deasserted
    ++ [.lcdWrite true (highByte v) (lowByte v)]

/-- The fifteen events of LCMD (R151). -/
def commandEvents (latch : Byte) (dir oe addr wr : Level) (cmd : Byte) : List Event :=
  [.latchW latch 0x00#8, .pinW .dir dir false, .oeW oe true, .pinW .addr addr false] ++ pulseEvents wr
    ++ [.latchW 0x00#8 cmd] ++ pulseEvents deasserted ++ [.lcdWrite false 0x00#8 cmd, .pinW .addr false true]

/-- The nine events of an LCD read with two bytes `hi` and `lo` (R158, R159). -/
def readEvents (profile : Profile) (kind : WaitKind) (nHi nLo : Nat) (oe dir rd : Level) (hi lo : Byte) : List Event :=
  [.oeW oe false, .pinW .dir dir true, .pinW .lcdRd rd Config.strobeActive, .wait kind nHi, .samp hi,
   .pinW .lcdRd Config.strobeActive deasserted, .wait kind nLo, .samp lo, .lcdRead profile hi lo]

/-- The state after one data write (R152): the latch, P_LCD_WR, SETTLE and EV change, nothing else. -/
def afterDataWrite (s : State) (v : Half) : State :=
  { s with
    outLatch := lowByte v, pins := { s.pins with lcdWr := deasserted }, settle := .cycles 0,
    ev := s.ev ++ dataWriteEvents s.outLatch s.pins.lcdWr v }

/-- The state after an LCD read that took the next two answers of the environment (R158, R159). -/
def afterRead (profile : Profile) (kind : WaitKind) (nHi nLo : Nat) (s : State) : State :=
  { s with
    pins := { s.pins with dir := true, lcdRd := deasserted }, busOe := false, phase := .readPhase,
    settle := .cycles nLo, env := s.env.busNext.busNext,
    ev := s.ev ++ readEvents profile kind nHi nLo s.busOe s.pins.dir s.pins.lcdRd s.env.busAnswer
      s.env.busNext.busAnswer,
    resp := s.resp ++ [respPair s.env.busAnswer s.env.busNext.busAnswer], cp := s.cp + 1 }

/-! ### Reading an event list -/

/-- A PinW event of P_ADDR, as the pair of its levels (R161). -/
def Event.addrWrite (e : Event) : Option (Level × Level) :=
  match e with
  | .pinW pin old new => if pin = .addr then some (old, new) else none
  | .oeW _ _ | .latchW _ _ | .wait _ _ | .samp _ | .rotA _ | .lcdWrite _ _ _ | .lcdRead _ _ _ | .ioRead _
  | .ioWrite _ _ => none

/-- The PinW events of P_ADDR in a list (R161). -/
def addrWrites (es : List Event) : List (Level × Level) := es.filterMap Event.addrWrite

/-- The wait cycles of an event (R39). -/
def Event.waitCycles (e : Event) : Nat :=
  match e with
  | .wait _ n => n
  | .pinW _ _ _ | .oeW _ _ | .latchW _ _ | .samp _ | .rotA _ | .lcdWrite _ _ _ | .lcdRead _ _ _ | .ioRead _
  | .ioWrite _ _ => 0

/-- The wait cycles of an event list (R162, R273). -/
def waitTotal : List Event → Nat
  | [] => 0
  | e :: es => e.waitCycles + waitTotal es

/-- The abstract events: those a transaction appends and no primitive does (R39, R150). -/
def Event.isAbstract : Event → Bool
  | .lcdWrite _ _ _ | .lcdRead _ _ _ | .ioRead _ | .ioWrite _ _ => true
  | .pinW _ _ _ | .oeW _ _ | .latchW _ _ | .wait _ _ | .samp _ | .rotA _ => false

/-! ### Groups of commands -/

/-- The primitives that write a direction, address or strobe pin (R134). -/
def isPinPrimitive : Instr → Bool
  | .setdir _ | .addr _ | .rda | .rdd | .wra | .wrd | .stba | .stbd => true
  | .drvl _ | .drvh _ | .samp | .wait _ | .pdelay _ | .lcmd _ | .ldat _ | .lpix _ | .lpixr _ _ | .lpixa _
    | .lwrd _ | .lwrda _ | .lrdid | .lrdfm | .iord | .tcfg _ | .rota | .sqx _ | .bqf _ => false

/-- The primitives that write no pin (R134). -/
def isQuietPrimitive : Instr → Bool
  | .drvl _ | .drvh _ | .samp | .wait _ | .pdelay _ => true
  | .setdir _ | .addr _ | .rda | .rdd | .wra | .wrd | .stba | .stbd | .lcmd _ | .ldat _ | .lpix _
    | .lpixr _ _ | .lpixa _ | .lwrd _ | .lwrda _ | .lrdid | .lrdfm | .iord | .tcfg _ | .rota | .sqx _
    | .bqf _ => false

/-- The thirteen primitives (40_bus_primitives.md). -/
def isPrimitive (i : Instr) : Bool := isPinPrimitive i || isQuietPrimitive i

/-- The two squelch commands (43_squelch.md). -/
def isSquelch : Instr → Bool
  | .bqf _ | .sqx _ => true
  | .setdir _ | .drvl _ | .drvh _ | .samp | .addr _ | .rda | .rdd | .wra | .wrd | .stba | .stbd | .wait _
    | .pdelay _ | .lcmd _ | .ldat _ | .lpix _ | .lpixr _ _ | .lpixa _ | .lwrd _ | .lwrda _ | .lrdid | .lrdfm
    | .iord | .tcfg _ | .rota => false

/-- The transactions (R150, R180). -/
def isTransaction : Instr → Bool
  | .lcmd _ | .ldat _ | .lpix _ | .lpixr _ _ | .lpixa _ | .lwrd _ | .lwrda _ | .lrdid | .lrdfm | .iord
    | .tcfg _ => true
  | .setdir _ | .drvl _ | .drvh _ | .samp | .addr _ | .rda | .rdd | .wra | .wrd | .stba | .stbd | .wait _
    | .pdelay _ | .rota | .sqx _ | .bqf _ => false

/-- The words a fast-path write sends, in order (R152 to R157). `none` for every other command. -/
def fastData : Instr → Option (List Half)
  | .ldat v => some [v]
  | .lpix v => some [v]
  | .lwrd v => some [v]
  | .lpixr v n => some (List.replicate n.toNat v)
  | .lpixa vs => some vs
  | .lwrda vs => some vs
  | .setdir _ | .drvl _ | .drvh _ | .samp | .addr _ | .rda | .rdd | .wra | .wrd | .stba | .stbd | .wait _
    | .pdelay _ | .lcmd _ | .lrdid | .lrdfm | .iord | .tcfg _ | .rota | .sqx _ | .bqf _ => none

end Sys2Proof.Machine
end

