-- ==== Sys2Proof/Certificates/Slice0/Obligations.lean ====
section
/-!
DEFINITION. The statements about the model, for the provers. Each docstring names the rule of spec/ it formalises; what
rests on the model's own choice says so and names the log entry.
-/
open Sys2Proof Sys2Proof.Machine

/-! ### Encoding and decoding (30_encoding.md) -/

/-- R90 to R97: decoding the words of a well-formed command gives the command back, every operand at every value. -/
def Obligations.DecodeOfEncode : Prop :=
  ∀ (i : Instr) (rest : List Word), i.wellFormed = true → decode (encode i ++ rest) = .ok i rest

/-- R90 to R97: a list of words that decodes starts with the words of a well-formed command; each has one meaning. -/
def Obligations.EncodeOfDecode : Prop :=
  ∀ (ws rest : List Word) (i : Instr), decode ws = .ok i rest → i.wellFormed = true ∧ encode i ++ rest = ws

/-- R95: a head word is legal exactly when it selects a row of the opcode table, it then stands for that row's
mnemonic, and no head word selects two rows. -/
def Obligations.HeadWordSelectsRow : Prop :=
  ∀ w : Word,
    (decodeHead w).map Head.mnemonic = (opcodeTable.find? (fun r => r.selects w)).map OpcodeRow.mnemonic ∧
    ∀ r ∈ opcodeTable, ∀ q ∈ opcodeTable, r.selects w = true → q.selects w = true → r = q

/-- R96 items 1 to 3: a head word that selects no row raises IllegalCommand with that word as its info. -/
def Obligations.IllegalHeadWordRejected : Prop :=
  ∀ (w : Word) (rest : List Word), (∀ r ∈ opcodeTable, r.selects w = false) →
    decode (w :: rest) = .bad (.illegalCommand w)

/-- R96 item 4, R233: in a command whose words are all there, the first element or sample word with any of bits 31:16
set raises IllegalCommand with that word as its info. -/
def Obligations.IllegalElementRejected : Prop :=
  ∀ (good tail : List Word) (w : Word), (∀ g ∈ good, upperField g = 0#16) → upperField w ≠ 0#16 →
    (∀ count : Word, good.length < count.toNat → count.toNat ≤ (good ++ w :: tail).length →
      decode (0x14000000#32 :: count :: (good ++ w :: tail)) = .bad (.illegalCommand w) ∧
      decode (0x16000000#32 :: count :: (good ++ w :: tail)) = .bad (.illegalCommand w)) ∧
    (∀ len : Byte, good.length < len.toNat → len.toNat ≤ (good ++ w :: tail).length → len.toNat ≤ 32 →
      decode (packHead 0x30#8 len 0#16 :: (good ++ w :: tail)) = .bad (.illegalCommand w))

/-- R67, R98: a multi-word command that reaches past the end of the stream raises TruncatedCommand, before its element
words are looked at; the info is the index of the first missing word, here counted from the head word. -/
def Obligations.TruncatedCommandRejected : Prop :=
  (∀ color : Half, decode [packHead 0x13#8 0#8 color] = .bad (.truncated 1)) ∧
  decode [0x14000000#32] = .bad (.truncated 1) ∧ decode [0x16000000#32] = .bad (.truncated 1) ∧
  (∀ (count : Word) (ws : List Word), ws.length < count.toNat →
    decode (0x14000000#32 :: count :: ws) = .bad (.truncated (2 + ws.length)) ∧
    decode (0x16000000#32 :: count :: ws) = .bad (.truncated (2 + ws.length))) ∧
  (∀ (len : Byte) (ws : List Word), len.toNat ≤ 32 → ws.length < len.toNat →
    decode (packHead 0x30#8 len 0#16 :: ws) = .bad (.truncated (1 + ws.length)))

/-- R207, R98: a block length above 32 raises LengthMismatch, whatever words follow or are missing. -/
def Obligations.LongBlockRejected : Prop :=
  ∀ (len : Byte) (ws : List Word), 32 < len.toNat →
    decode (packHead 0x30#8 len 0#16 :: ws) = .bad (.lengthMismatch len.toNat)

/-- Words written out in 95_test_vectors.md decode to the command they stand for. -/
def Obligations.SpecWordsDecode : Prop :=
  decode [0x01000001#32] = .ok (.setdir true) [] ∧
  decode [0x0200AB2C#32] = .ok (.drvl 0xAB2C#16) [] ∧
  decode [0x0D000047#32] = .ok (.pdelay 71#16) [] ∧
  decode [0x1000002C#32] = .ok (.lcmd 0x2C#8) [] ∧
  decode [0x1300F800#32, 0x00000003#32, 0x17000000#32] = .ok (.lpixr 0xF800#16 3#32) [0x17000000#32] ∧
  decode [0x16000000#32, 0x00000002#32, 0x00001234#32, 0x00005678#32] = .ok (.lwrda [0x1234#16, 0x5678#16]) [] ∧
  decode [0x210000CB#32] = .ok (.tcfg 0xCB#8) [] ∧
  decode [0x30030000#32, 0x00002EE0#32, 0x0000D120#32, 0x00002EE0#32] =
    .ok (.sqx [0x2EE0#16, 0xD120#16, 0x2EE0#16]) [] ∧
  decode [0x3100FC18#32] = .ok (.bqf 0xFC18#16) []

/-! ### The step -/

/-- R11, R37: at a state without a fault, step runs exactly the command that the words at CP decode to. -/
def Obligations.StepRunsDecoded : Prop :=
  ∀ (s : State) (i : Instr) (rest : List Word), s.fault = none → decode (s.cs.drop s.cp) = .ok i rest →
    step s = exec i s

/-- R232, R231: words at CP that decode to no command make step record the fault with the CP of the command, and nothing
else changes. The offending word and the block length are the info as decode found them; the index of the first missing
word, which decode counts from the head word, is recorded as an index of CS. That this is a next state is the model's
choice (log entry 4). -/
def Obligations.StepRecordsDecodeFault : Prop :=
  ∀ s : State, s.fault = none → s.cp < s.cs.length →
    (∀ w : Word, decode (s.cs.drop s.cp) = .bad (.illegalCommand w) →
      step s = .next { s with fault := some { kind := .illegalCommand w, cp := s.cp } }) ∧
    (∀ len : Nat, decode (s.cs.drop s.cp) = .bad (.lengthMismatch len) →
      step s = .next { s with fault := some { kind := .lengthMismatch len, cp := s.cp } }) ∧
    (∀ k : Nat, decode (s.cs.drop s.cp) = .bad (.truncated k) →
      step s = .next { s with fault := some { kind := .truncatedCommand (s.cp + k), cp := s.cp } })

/-- R41: a state with FAULT set takes no further step. -/
def Obligations.FaultedStateStops : Prop :=
  ∀ (s : State) (r : FaultRecord), s.fault = some r → step s = .fault (.halted r)

/-- R263: at CP = length(CS) the run is over. The refusal that says so is the model's choice (log entry 5). -/
def Obligations.RunEndsAtStreamEnd : Prop :=
  ∀ s : State, s.fault = none → s.cp = s.cs.length → step s = .refused .endOfRun

/-! ### Primitives (40_bus_primitives.md) -/

/-- R121: SETDIR completes in every state; the two writes and their events stand in the order that never lets both
sides drive. -/
def Obligations.SetdirResult : Prop :=
  encode (.setdir false) = [0x01000000#32] ∧ encode (.setdir true) = [0x01000001#32] ∧
  ∀ s : State,
    exec (.setdir false) s = .next { s with
      pins := { s.pins with dir := false }, busOe := true, settle := .cycles 0, phase := .idle, cp := s.cp + 1,
      ev := s.ev ++ [.pinW .dir s.pins.dir false, .oeW s.busOe true] } ∧
    exec (.setdir true) s = .next { s with
      pins := { s.pins with dir := true }, busOe := false, settle := .cycles 0, phase := .idle, cp := s.cp + 1,
      ev := s.ev ++ [.oeW s.busOe false, .pinW .dir s.pins.dir true] }

/-- R122, R123: DRVL latches `value[7:0]` and DRVH `value[15:8]`, in every phase and direction; BUS_MASK at its constant
(R28). -/
def Obligations.LatchWriteResults : Prop :=
  ∀ (value : Half) (s : State), s.busMask = 0xFFFF00FF#32 →
    encode (.drvl value) = [0x02#8 ++ (0#8 ++ value)] ∧ encode (.drvh value) = [0x03#8 ++ (0#8 ++ value)] ∧
    exec (.drvl value) s = .next { s with
      outLatch := value.extractLsb' 0 8, settle := .cycles 0, cp := s.cp + 1,
      ev := s.ev ++ [.latchW s.outLatch (value.extractLsb' 0 8)] } ∧
    exec (.drvh value) s = .next { s with
      outLatch := value.extractLsb' 8 8, settle := .cycles 0, cp := s.cp + 1,
      ev := s.ev ++ [.latchW s.outLatch (value.extractLsb' 8 8)] }

/-- R124: SAMP answers the environment's byte when the host listens and the bus has settled; it faults while the host
drives, and otherwise when SETTLE is short, in that order. -/
def Obligations.SampResult : Prop :=
  encode .samp = [0x04000000#32] ∧
  ∀ s : State, s.busMask = 0xFFFF00FF#32 →
    (s.busOe = false → s.settle.short = false →
      exec .samp s = .next { s with
        env := s.env.busNext, ev := s.ev ++ [.samp s.env.busAnswer],
        resp := s.resp ++ [s.env.busAnswer.setWidth 32], cp := s.cp + 1 }) ∧
    (s.busOe = true → exec .samp s = .next (s.raise .sampleWhileDriving)) ∧
    (s.busOe = false → s.settle.short = true → exec .samp s = .next (s.raise (.settleViolation s.settle)))

/-- R125: ADDR writes P_ADDR. -/
def Obligations.AddrResult : Prop :=
  encode (.addr false) = [0x05000000#32] ∧ encode (.addr true) = [0x05000001#32] ∧
  ∀ (a : Level) (s : State), exec (.addr a) s = .next { s with
    pins := { s.pins with addr := a }, settle := .cycles 0, phase := .idle, cp := s.cp + 1,
    ev := s.ev ++ [.pinW .addr s.pins.addr a] }

/-- R126, R127: RDA and RDD complete in every state, with no settle requirement; asserted is level 0. -/
def Obligations.ReadStrobeResults : Prop :=
  encode .rda = [0x06000000#32] ∧ encode .rdd = [0x07000000#32] ∧
  ∀ s : State,
    exec .rda s = .next { s with
      pins := { s.pins with lcdRd := false }, settle := .cycles 0, phase := .idle, cp := s.cp + 1,
      ev := s.ev ++ [.pinW .lcdRd s.pins.lcdRd false] } ∧
    exec .rdd s = .next { s with
      pins := { s.pins with lcdRd := true }, settle := .cycles 0, phase := .idle, cp := s.cp + 1,
      ev := s.ev ++ [.pinW .lcdRd s.pins.lcdRd true] }

/-- R128, R129: WRA and WRD complete when SETTLE is at least W_SETUP, and raise SettleViolation with the SETTLE found
when it is not. -/
def Obligations.WriteStrobeResults : Prop :=
  encode .wra = [0x08000000#32] ∧ encode .wrd = [0x09000000#32] ∧
  ∀ s : State,
    (s.settle.short = false →
      exec .wra s = .next { s with
        pins := { s.pins with lcdWr := false }, settle := .cycles 0, phase := .idle, cp := s.cp + 1,
        ev := s.ev ++ [.pinW .lcdWr s.pins.lcdWr false] } ∧
      exec .wrd s = .next { s with
        pins := { s.pins with lcdWr := true }, settle := .cycles 0, phase := .idle, cp := s.cp + 1,
        ev := s.ev ++ [.pinW .lcdWr s.pins.lcdWr true] }) ∧
    (s.settle.short = true →
      exec .wra s = .next (s.raise (.settleViolation s.settle)) ∧
      exec .wrd s = .next (s.raise (.settleViolation s.settle)))

/-- R130, R131: STBA completes in every state; STBD completes when SETTLE is at least W_SETUP and raises
SettleViolation when it is not. -/
def Obligations.LatchStrobeResults : Prop :=
  encode .stba = [0x0A000000#32] ∧ encode .stbd = [0x0B000000#32] ∧
  ∀ s : State,
    exec .stba s = .next { s with
      pins := { s.pins with ioStb := false }, settle := .cycles 0, phase := .idle, cp := s.cp + 1,
      ev := s.ev ++ [.pinW .ioStb s.pins.ioStb false] } ∧
    (s.settle.short = false → exec .stbd s = .next { s with
      pins := { s.pins with ioStb := true }, settle := .cycles 0, phase := .idle, cp := s.cp + 1,
      ev := s.ev ++ [.pinW .ioStb s.pins.ioStb true] }) ∧
    (s.settle.short = true → exec .stbd s = .next (s.raise (.settleViolation s.settle)))

/-- R132, R133: WAIT and PDELAY append their event and add their count to SETTLE, INF staying INF, and differ in the
event kind alone. -/
def Obligations.WaitResults : Prop :=
  ∀ (n : Half) (s : State) (t : Settle),
    (t = match s.settle with | .cycles m => .cycles (m + n.toNat) | .inf => .inf) →
    encode (.wait n) = [0x0C#8 ++ (0#8 ++ n)] ∧ encode (.pdelay n) = [0x0D#8 ++ (0#8 ++ n)] ∧
    exec (.wait n) s = .next { s with
      settle := t, cp := s.cp + 1, ev := s.ev ++ [.wait .spin n.toNat] } ∧
    exec (.pdelay n) s = .next { s with
      settle := t, cp := s.cp + 1, ev := s.ev ++ [.wait .polled n.toNat] }

/-- R265: SETTLE is short exactly when fewer than three wait cycles have been counted; INF never is. -/
def Obligations.SettleShortMeansBelowSetup : Prop :=
  (∀ n : Nat, (Settle.cycles n).short = true ↔ n < 3) ∧ Settle.inf.short = false ∧
  ∀ (t : Settle) (n : Nat), 3 ≤ n → (t.add n).short = false

/-- R134: a primitive command that writes a direction, address or strobe pin leaves Idle; one that writes none leaves
PHASE unchanged; the micro-operations themselves, as a transaction runs them, never touch PHASE. -/
def Obligations.PhaseAfterPrimitive : Prop :=
  ∀ (i : Instr) (s t : State), exec i s = .next t →
    (isPinPrimitive i = true → s.fault = none → t.fault = none → t.phase = .idle) ∧
    (isQuietPrimitive i = true → t.phase = s.phase) ∧ ∀ u : Uop, (u.effect s).phase = s.phase

/-- R135: SETDIR, ADDR, the strobe commands, DRVL and DRVH are idempotent on the bus-facing state, whatever BUS_MASK
holds. The second clause puts any SETTLE between the two commands, so that WRA, WRD and STBD complete twice; the third
says the same of every micro-operation. -/
def Obligations.PrimitivesIdempotent : Prop :=
  (∀ (i : Instr) (s t u : State),
    (isPinPrimitive i = true ∨ (∃ v, i = .drvl v) ∨ ∃ v, i = .drvh v) →
    exec i s = .next t → exec i t = .next u → busFacing u = busFacing t) ∧
  (∀ (i : Instr) (s t u : State) (x : Settle),
    (isPinPrimitive i = true ∨ (∃ v, i = .drvl v) ∨ ∃ v, i = .drvh v) →
    exec i s = .next t → t.fault = none → exec i { t with settle := x } = .next u →
    busFacing u = busFacing t ∧ (x.short = false → u.fault = none)) ∧
  (∀ (u : Uop) (s : State), busFacing (u.effect (u.effect s)) = busFacing (u.effect s))

/-- R42, R121: the no-contention invariant holds after reset and every micro-operation keeps it. SETDIR is its two writes
in the order of R121 and keeps the invariant between them; where it turns the bus around, nobody drives there. -/
def Obligations.UopsNeverContend : Prop :=
  (∀ p : Params, noContention (State.resetWith p)) ∧
  (∀ (u : Uop) (s : State), noContention s → noContention (u.effect s)) ∧
  (∀ s : State,
    (Uop.setdir false).effect s = ((s.writePin .dir false).writeOe true).setSettle (.cycles 0) ∧
    (Uop.setdir true).effect s = ((s.writeOe false).writePin .dir true).setSettle (.cycles 0)) ∧
  (∀ s : State, noContention s →
    (s.writePin .dir false).pins.dir = false ∧ noContention (s.writePin .dir false) ∧
    (s.writeOe false).busOe = false ∧ noContention (s.writeOe false) ∧
    (s.pins.dir = true → (s.writePin .dir false).busOe = false) ∧
    (s.pins.dir = false → (s.writeOe false).pins.dir = false))

/-- R136, R150, R269: a primitive command appends no abstract event and does not write IO_REG, LAST_READ or
LAST_VALID: a transfer built by hand is recorded as pin events only. -/
def Obligations.PrimitivesAppendNoAbstractEvent : Prop :=
  ∀ (i : Instr) (s t : State), isPrimitive i = true → exec i s = .next t →
    (∃ es, t.ev = s.ev ++ es ∧ ∀ e ∈ es, e.isAbstract = false) ∧
    t.ioReg = s.ioReg ∧ t.lastRead = s.lastRead ∧ t.lastValid = s.lastValid

/-- R29, R30: under the constant of BUS_MASK a write of BUS_MPIN latches bits 15:8, and a read gives the bus pins in
bits 15:8 and 0 elsewhere; SETDIR is an OR and an AND on bits 15:8 of BUS_PDIR, and every other bit stays the
platform's. -/
def Obligations.PortRegisterViews : Prop :=
  (∀ (s : State) (w : Word), s.busMask = 0xFFFF00FF#32 →
    (s.mpinWrite w).outLatch = w.extractLsb' 8 8 ∧ s.mpinRead = s.busRead.setWidth 32 <<< 8) ∧
  (∀ (s t u : State) (others : Word), exec (.setdir false) s = .next t → exec (.setdir true) s = .next u →
    t.busPdir others = s.busPdir others ||| 0x0000FF00#32 ∧
    u.busPdir others = s.busPdir others &&& 0xFFFF00FF#32)

/-! ### LCD transactions (41_lcd_transactions.md) -/

/-- R151: LCMD completes in every phase and settle state; BUS_MASK at its constant (R28). -/
def Obligations.LcmdResult : Prop :=
  ∀ (cmd : Byte) (s : State), s.busMask = 0xFFFF00FF#32 →
    encode (.lcmd cmd) = [0x10#8 ++ (0#8 ++ (0#8 ++ cmd))] ∧
    exec (.lcmd cmd) s = .next { s with
      outLatch := cmd, busOe := true, phase := .dataPhase, settle := .cycles 0, cp := s.cp + 1,
      pins := { s.pins with dir := false, addr := true, lcdWr := true },
      ev := s.ev ++ commandEvents s.outLatch s.pins.dir s.busOe s.pins.addr s.pins.lcdWr cmd }

/-- R152, R153, R156: LDAT, LPIX and LWRD do one data write in DataPhase, with nothing else changed, and raise
PhaseViolation before their first micro-operation in every other phase. -/
def Obligations.DataWordResult : Prop :=
  ∀ (v : Half) (s : State), s.busMask = 0xFFFF00FF#32 → ∀ i ∈ [Instr.ldat v, Instr.lpix v, Instr.lwrd v],
    (s.phase = .dataPhase → exec i s = .next { s with
      outLatch := v.extractLsb' 0 8, pins := { s.pins with lcdWr := true }, settle := .cycles 0, cp := s.cp + 1,
      ev := s.ev ++ dataWriteEvents s.outLatch s.pins.lcdWr v }) ∧
    (s.phase ≠ .dataPhase → exec i s = .next (s.raise (.phaseViolation s.phase)))

/-- R154, R155, R157: LPIXR, LPIXA and LWRDA do their data writes in order, one after the other, and CP advances by
their length; with a count of 0 they complete in every phase and do nothing else; with data to write and PHASE not
DataPhase they raise PhaseViolation before their first micro-operation. -/
def Obligations.ArrayWriteResult : Prop :=
  ∀ s : State, s.busMask = 0xFFFF00FF#32 →
    (∀ (color : Half) (count : Word), (count.toNat = 0 ∨ s.phase = .dataPhase) →
      exec (.lpixr color count) s =
        .next { (List.replicate count.toNat color).foldl afterDataWrite s with cp := s.cp + 2 }) ∧
    (∀ es : List Half, (es = [] ∨ s.phase = .dataPhase) →
      exec (.lpixa es) s = .next { es.foldl afterDataWrite s with cp := s.cp + (2 + es.length) } ∧
      exec (.lwrda es) s = .next { es.foldl afterDataWrite s with cp := s.cp + (2 + es.length) }) ∧
    (∀ (i : Instr) (vs : List Half), fastData i = some vs → vs ≠ [] → s.phase ≠ .dataPhase →
      exec i s = .next (s.raise (.phaseViolation s.phase)))

/-- R158: LRDID in DataPhase or ReadPhase, with waits of W_SETUP at least (R7): the two bytes are the environment's
next two answers. In Idle it raises PhaseViolation. -/
def Obligations.LrdidResult : Prop :=
  encode .lrdid = [0x17000000#32] ∧
  ∀ s : State, s.busMask = 0xFFFF00FF#32 → waitsLegal s.cfg →
    ((s.phase = .dataPhase ∨ s.phase = .readPhase) →
      exec .lrdid s = .next (afterRead .id .spin (wIdHi s.cfg) (wIdLo s.cfg) s)) ∧
    (s.phase = .idle → exec .lrdid s = .next (s.raise (.phaseViolation .idle)))

/-- R159: LRDFM as LRDID, with the polled delays of the long profile. -/
def Obligations.LrdfmResult : Prop :=
  encode .lrdfm = [0x18000000#32] ∧
  ∀ s : State, s.busMask = 0xFFFF00FF#32 → waitsLegal s.cfg →
    ((s.phase = .dataPhase ∨ s.phase = .readPhase) →
      exec .lrdfm s = .next (afterRead .fm .polled (wFmHi s.cfg) (wFmLo s.cfg) s)) ∧
    (s.phase = .idle → exec .lrdfm s = .next (s.raise (.phaseViolation .idle)))

/-- R160, R9: for the same answers the two read commands leave the same response, pins, latch, enable and phase, and
their events differ only in the two waits and the profile tag; the waits differ in every legal configuration, and the
word is the high byte times 256 plus the low byte. -/
def Obligations.ReadProfilesAgree : Prop :=
  (∀ s t u : State, waitsLegal s.cfg → s.busMask = 0xFFFF00FF#32 → (s.phase = .dataPhase ∨ s.phase = .readPhase) →
    exec .lrdid s = .next t → exec .lrdfm s = .next u →
    t.resp = u.resp ∧ busFacing t = busFacing u ∧ t.phase = u.phase ∧ t.env = u.env ∧ t.cp = u.cp ∧
    ∃ hi lo : Byte, t.resp = s.resp ++ [respPair hi lo] ∧
      t.ev = s.ev ++ readEvents .id .spin (wIdHi s.cfg) (wIdLo s.cfg) s.busOe s.pins.dir s.pins.lcdRd hi lo ∧
      u.ev = s.ev ++ readEvents .fm .polled (wFmHi s.cfg) (wFmLo s.cfg) s.busOe s.pins.dir s.pins.lcdRd hi lo) ∧
  (∀ p : Params, waitsLegal p → wFmHi p ≠ wIdHi p ∧ wFmLo p ≠ wIdLo p) ∧
  (∀ hi lo : Byte, (respPair hi lo).toNat = hi.toNat * 256 + lo.toNat)

/-- R161: the fast-path writes and the reads append no PinW of P_ADDR; LCMD appends exactly two, to 0 and then from 0
to 1. -/
def Obligations.AddressLineLaw : Prop :=
  (∀ (i : Instr) (vs : List Half) (s t : State), fastData i = some vs → exec i s = .next t →
    ∃ es, t.ev = s.ev ++ es ∧ addrWrites es = []) ∧
  (∀ (i : Instr) (s t : State), (i = .lrdid ∨ i = .lrdfm) → exec i s = .next t →
    ∃ es, t.ev = s.ev ++ es ∧ addrWrites es = []) ∧
  (∀ (cmd : Byte) (s t : State), exec (.lcmd cmd) s = .next t →
    ∃ es, t.ev = s.ev ++ es ∧ addrWrites es = [(s.pins.addr, false), (false, true)])

/-- R162, R273: how many events and wait cycles each transaction appends. -/
def Obligations.TransactionSizes : Prop :=
  ∀ s : State, s.busMask = 0xFFFF00FF#32 → waitsLegal s.cfg → s.phase = .dataPhase →
    ∀ (i : Instr) (t : State), exec i s = .next t → t.fault = none →
      ∃ es, t.ev = s.ev ++ es ∧
        (∀ cmd, i = .lcmd cmd → es.length = 15 ∧ waitTotal es = 12) ∧
        (∀ vs, fastData i = some vs → es.length = 11 * vs.length ∧ waitTotal es = 12 * vs.length) ∧
        (i = .lrdid → es.length = 9 ∧ waitTotal es = wIdHi s.cfg + wIdLo s.cfg) ∧
        (i = .lrdfm → es.length = 9 ∧ waitTotal es = wFmHi s.cfg + wFmLo s.cfg) ∧
        (i = .iord → es.length = 8 ∧ waitTotal es = 3) ∧
        (∀ c, i = .tcfg c → es.length = 9 ∧ waitTotal es = 6)

/-- R150 step (6), R7: with legal waits a transaction raises neither SettleViolation nor SampleWhileDriving, whatever
state it starts from. -/
def Obligations.TransactionsMeetSettleRule : Prop :=
  ∀ (i : Instr) (s t : State) (r : FaultRecord), isTransaction i = true → waitsLegal s.cfg → s.fault = none →
    exec i s = .next t → t.fault = some r → r.kind ≠ .sampleWhileDriving ∧ ∀ x, r.kind ≠ .settleViolation x

/-! ### Touch and input (42_touch_input.md) -/

/-- R181: IORD completes in every phase; the byte is the environment's next answer. -/
def Obligations.IordResult : Prop :=
  encode .iord = [0x20000000#32] ∧
  ∀ s : State, s.busMask = 0xFFFF00FF#32 →
    exec .iord s = .next { s with
      pins := { s.pins with dir := true, addr := false, ioStb := true }, busOe := false, phase := .idle,
      settle := .cycles 0, env := s.env.busNext, lastRead := s.env.busAnswer.setWidth 32, lastValid := true,
      resp := s.resp ++ [s.env.busAnswer.setWidth 32], cp := s.cp + 1,
      ev := s.ev ++ [.pinW .ioStb s.pins.ioStb false, .oeW s.busOe false, .pinW .dir s.pins.dir true,
        .pinW .addr s.pins.addr false, .wait .spin 3, .samp s.env.busAnswer, .pinW .ioStb false true,
        .ioRead s.env.busAnswer] }

/-- R182, R102: TCFG completes for each of the five bytes in every phase, and answers LAST_READ once an IORD has
completed, before that a free word (log entry 9). Every other byte raises IllegalTouchConfig and nothing else. -/
def Obligations.TcfgResult : Prop :=
  ∀ (b : Byte) (s : State), s.busMask = 0xFFFF00FF#32 →
    encode (.tcfg b) = [0x21#8 ++ (0#8 ++ (0#8 ++ b))] ∧
    ((∃ c, touchByte s.cfg c = b) →
      exec (.tcfg b) s = .next { s with
        outLatch := b, pins := { s.pins with dir := false, addr := true, ioStb := true }, busOe := true,
        ioReg := b, phase := .idle, settle := .cycles 0, cp := s.cp + 1,
        env := if s.lastValid then s.env else s.env.wordNext,
        resp := s.resp ++ [if s.lastValid then s.lastRead else s.env.wordAnswer],
        ev := s.ev ++ [.latchW s.outLatch b, .pinW .dir s.pins.dir false, .oeW s.busOe true,
          .pinW .addr s.pins.addr true, .wait .spin 3, .pinW .ioStb s.pins.ioStb false, .wait .spin 3,
          .pinW .ioStb false true, .ioWrite true b] }) ∧
    ((∀ c, touchByte s.cfg c ≠ b) → exec (.tcfg b) s = .next (s.raise (.illegalTouchConfig b)))

/-- R183: ROTA answers the level the environment drives on P_ROT_A and touches no output line, latch, PHASE or
SETTLE. That the field of the input line keeps the level is the model's choice (log entry 8). -/
def Obligations.RotaResult : Prop :=
  encode .rota = [0x22000000#32] ∧
  ∀ s : State, exec .rota s = .next { s with
    env := s.env.rotNext, pins := { s.pins with rotA := s.env.rotAnswer }, ev := s.ev ++ [.rotA s.env.rotAnswer],
    resp := s.resp ++ [if s.env.rotAnswer then 1#32 else 0#32], cp := s.cp + 1 }

/-- R184: after an IORD, TCFG answers the value read, and a second TCFG answers it again, for any legal operands. -/
def Obligations.TouchRoundTrip : Prop :=
  ∀ (s a b c : State) (c1 c2 : TouchConfig),
    exec .iord s = .next a → exec (.tcfg (touchByte s.cfg c1)) a = .next b →
    exec (.tcfg (touchByte s.cfg c2)) b = .next c →
    ∃ w, a.resp = s.resp ++ [w] ∧ b.resp = a.resp ++ [w] ∧ c.resp = b.resp ++ [w]

/-- R184, R32: only IORD writes LAST_READ and LAST_VALID. -/
def Obligations.OnlyIordWritesLastRead : Prop :=
  ∀ (i : Instr) (s t : State), i ≠ .iord → exec i s = .next t →
    t.lastRead = s.lastRead ∧ t.lastValid = s.lastValid

/-- R185, R31: an IoWrite event carries address 1 and one of the five legal bytes, which IO_REG then holds; a command
that appends none leaves IO_REG unchanged. -/
def Obligations.OnlyLegalBytesLatched : Prop :=
  ∀ (i : Instr) (s t : State), exec i s = .next t → ∃ es, t.ev = s.ev ++ es ∧
    (∀ (a : Level) (v : Byte), Event.ioWrite a v ∈ es →
      a = true ∧ (∃ c, touchByte s.cfg c = v) ∧ t.ioReg = v) ∧
    ((∀ (a : Level) (v : Byte), Event.ioWrite a v ∉ es) → t.ioReg = s.ioReg)

/-! ### Squelch (43_squelch.md) -/

/-- R201: BQF completes in every state: the registers shift, and the new output is both Y1 and the response. -/
def Obligations.BqfResult : Prop :=
  ∀ (x : Half) (s : State), ∃ y : Half,
    encode (.bqf x) = [0x31#8 ++ (0#8 ++ x)] ∧
    y.toInt = sat16 ((s.cfg.bqCoef.b0.toInt * x.toInt + s.cfg.bqCoef.b1.toInt * s.biq.x1.toInt
      + s.cfg.bqCoef.b2.toInt * s.biq.x2.toInt - s.cfg.bqCoef.a1.toInt * s.biq.y1.toInt
      - s.cfg.bqCoef.a2.toInt * s.biq.y2.toInt + 8192) / 16384) ∧
    exec (.bqf x) s = .next { s with
      biq := { x1 := x, x2 := s.biq.x1, y1 := y, y2 := s.biq.y1 },
      resp := s.resp ++ [y.setWidth 32], cp := s.cp + 1 }

/-- R202 laws (1) to (3): the rounding is to nearest with ties toward plus infinity, the output saturates to the signed
16-bit range and does not wrap, and with coefficient magnitudes that sum to at most 65535 a signed 32-bit accumulator
holds `acc + 2^13`. -/
def Obligations.BiquadArithmeticLaws : Prop :=
  (∀ acc : Int, 2 * acc - 16384 < 2 * (16384 * roundShift acc) ∧ 2 * (16384 * roundShift acc) ≤ 2 * acc + 16384) ∧
  (∀ v : Int, sat16 v = max (-32768) (min 32767 v)) ∧
  (∀ (c : Coef) (b : Biquad) (x : Half), (biquadOut c b x).toInt = sat16 (roundShift (biquadAcc c b x))) ∧
  (∀ (c : Coef) (b : Biquad) (x : Half), absOf c.b0 + absOf c.b1 + absOf c.b2 + absOf c.a1 + absOf c.a2 ≤ 65535 →
    -2147483648 ≤ biquadAcc c b x + 8192 ∧ biquadAcc c b x + 8192 ≤ 2147483647)

/-- R203, R205: SQX with at most 32 samples completes in every state: the registers advance by the block and the
response is the classification of the block's outputs; a longer block raises LengthMismatch and nothing else. The empty
block leaves the registers and has no output; any other block is the step of R201 on its first sample, whose output `y`
comes first, followed by the block of the rest. -/
def Obligations.SqxResult : Prop :=
  (∀ (xs : List Half) (s : State),
    (xs.length ≤ 32 → exec (.sqx xs) s = .next { s with
      biq := biquadBlock s.cfg.bqCoef s.biq xs,
      resp := s.resp ++ [if (decide (measureOf s.cfg.sqMeasure (biquadOutputs s.cfg.bqCoef s.biq xs)
        < limitOf s.cfg.sqMeasure) ^^ s.cfg.sqInvert) then 1#32 else 0#32],
      cp := s.cp + (1 + xs.length) }) ∧
    (32 < xs.length → exec (.sqx xs) s = .next (s.raise (.lengthMismatch xs.length)))) ∧
  (∀ (c : Coef) (b : Biquad), biquadBlock c b [] = b ∧ biquadOutputs c b [] = []) ∧
  (∀ (c : Coef) (b : Biquad) (x : Half) (xs : List Half), ∃ y : Half,
    y.toInt = sat16 ((c.b0.toInt * x.toInt + c.b1.toInt * b.x1.toInt + c.b2.toInt * b.x2.toInt
      - c.a1.toInt * b.y1.toInt - c.a2.toInt * b.y2.toInt + 8192) / 16384) ∧
    biquadBlock c b (x :: xs) = biquadBlock c { x1 := x, x2 := b.x1, y1 := y, y2 := b.y1 } xs ∧
    biquadOutputs c b (x :: xs) = y :: biquadOutputs c { x1 := x, x2 := b.x1, y1 := y, y2 := b.y1 } xs)

/-- R204: the three measures as exact integers. SumSq is the sum of the squares and SumAbs the sum of the magnitudes;
PeakSq is the greatest square; each is 0 for the empty block. They are at most 2^30 for PeakSq, 2^35 for SumSq and 2^20
for SumAbs, and the limits are 9437184, 9437184 and 3072. -/
def Obligations.MeasureBounds : Prop :=
  (∀ ys : List Half,
    (measureOf .sumSq ys : Int) = (ys.map fun y => y.toInt * y.toInt).sum ∧
    (measureOf .sumAbs ys : Int) = (ys.map fun y => if y.toInt < 0 then -y.toInt else y.toInt).sum ∧
    (∀ y ∈ ys, y.toInt * y.toInt ≤ (measureOf .peakSq ys : Int)) ∧
    (ys ≠ [] → ∃ y ∈ ys, (measureOf .peakSq ys : Int) = y.toInt * y.toInt)) ∧
  (∀ m : Measure, measureOf m [] = 0) ∧
  (∀ ys : List Half, ys.length ≤ 32 →
    measureOf .peakSq ys ≤ 2 ^ 30 ∧ measureOf .sumSq ys ≤ 2 ^ 35 ∧ measureOf .sumAbs ys ≤ 2 ^ 20) ∧
  limitOf .peakSq = 9437184 ∧ limitOf .sumSq = 9437184 ∧ limitOf .sumAbs = 3072

/-- R206: filtering two blocks one after the other is filtering their concatenation; the registers are reset neither
before nor after a block. -/
def Obligations.FilterStatePersists : Prop :=
  ∀ (xs ys : List Half) (s t u : State), xs.length ≤ 32 → ys.length ≤ 32 →
    exec (.sqx xs) s = .next t → exec (.sqx ys) t = .next u →
    u.biq = biquadBlock s.cfg.bqCoef s.biq (xs ++ ys) ∧
    biquadOutputs s.cfg.bqCoef s.biq (xs ++ ys) =
      biquadOutputs s.cfg.bqCoef s.biq xs ++ biquadOutputs s.cfg.bqCoef t.biq ys

/-- R200: the squelch commands change nothing of the bus controller and append no event, and every other command leaves
the four filter registers unchanged. -/
def Obligations.SquelchIsIndependent : Prop :=
  (∀ (i : Instr) (s t : State), isSquelch i = true → exec i s = .next t →
    t = { s with biq := t.biq, resp := t.resp, cp := t.cp, fault := t.fault }) ∧
  (∀ (i : Instr) (s t : State), isSquelch i = false → exec i s = .next t → t.biq = s.biq)

/-- R210 law (1), for every coefficient set: from an empty history an all-zero block leaves the history empty and is
classified 1 when SQ_INVERT is 0. -/
def Obligations.SilenceIsOpen : Prop :=
  ∀ (n : Nat) (s : State), n ≤ 32 → s.biq = { x1 := 0#16, x2 := 0#16, y1 := 0#16, y2 := 0#16 } →
    s.cfg.sqInvert = false →
    exec (.sqx (List.replicate n 0#16)) s = .next { s with resp := s.resp ++ [1#32], cp := s.cp + (1 + n) }

/-- R210 law (1), REFCFG coefficients: with zero input the filter has no constant output but 0. -/
def Obligations.ZeroInputHasNoFixedPoint : Prop :=
  ∀ y : Half, biquadOut Config.refcfg.bqCoef { x1 := 0#16, x2 := 0#16, y1 := y, y2 := y } 0#16 = y → y = 0#16

/-! ### The whole machine -/

/-- R45: the values the spec gives for reset, for every parameter record. LAST_READ and the input lines, for which the
spec gives none, are left out. -/
def Obligations.ResetValues : Prop :=
  ∀ p : Params,
    (State.resetWith p).pins.dir = true ∧ (State.resetWith p).busOe = false ∧
    (State.resetWith p).pins.lcdRd = true ∧ (State.resetWith p).pins.lcdWr = true ∧
    (State.resetWith p).pins.ioStb = true ∧ (State.resetWith p).pins.addr = false ∧
    (State.resetWith p).outLatch = 0x00#8 ∧ (State.resetWith p).busMask = 0xFFFF00FF#32 ∧
    (State.resetWith p).ioReg = p.ioRegReset ∧ (State.resetWith p).lastValid = false ∧
    (State.resetWith p).phase = .idle ∧
    (State.resetWith p).biq = { x1 := 0#16, x2 := 0#16, y1 := 0#16, y2 := 0#16 } ∧
    (State.resetWith p).cp = 0 ∧ (State.resetWith p).resp = [] ∧ (State.resetWith p).ev = [] ∧
    (State.resetWith p).settle = .inf ∧ (State.resetWith p).fault = none

/-- The invariant holds after reset, under REFCFG and under every parameter record with legal waits. -/
def Obligations.ResetMeetsSafetyInvariant : Prop :=
  Inv State.reset ∧ ∀ p : Params, waitsLegal p → Inv (State.resetWith p)

/-- Every step keeps the invariant: no contention (R42), the phase guarantees (R33, less the strobes R268 says are not
tracked), BUS_MASK (R28), CP inside the stream (R37, R263), LAST_READ a zero-extended byte (R32), IO_REG its reset
value or a legal byte (R31, R185). -/
def Obligations.StepKeepsSafetyInvariant : Prop :=
  ∀ s t : State, Inv s → step s = .next t → Inv t

/-- R232, R41: with legal waits every fault is precise: the record holds the CP of the command, nothing else changes,
and the machine takes no further step. -/
def Obligations.FaultsArePrecise : Prop :=
  ∀ (s t : State) (r : FaultRecord), waitsLegal s.cfg → step s = .next t → t.fault = some r →
    r.cp = s.cp ∧ t = { s with fault := some r } ∧ step t = .fault (.halted r)

/-- R37, R97: CP advances by the length of the command when it completes, and not at all when it faults. -/
def Obligations.CpAdvancesByLength : Prop :=
  ∀ (i : Instr) (s t : State), s.fault = none → exec i s = .next t →
    (t.fault = none → t.cp = s.cp + i.words) ∧ (t.fault ≠ none → t.cp = s.cp)

/-- R38, R39, R62, R71: a step appends to EV and RESP and removes nothing, and appends at most one response word. -/
def Obligations.HistoryOnlyGrows : Prop :=
  ∀ s t : State, step s = .next t →
    (∃ es, t.ev = s.ev ++ es) ∧ (t.resp = s.resp ∨ ∃ w, t.resp = s.resp ++ [w])

/-- R38, R101: exactly the eight value-returning commands respond, each with one word, when they complete. -/
def Obligations.ValueReturningCommands : Prop :=
  ∀ (i : Instr) (s t : State), s.fault = none → exec i s = .next t → t.fault = none →
    ((i = .samp ∨ i = .rota ∨ i = .lrdid ∨ i = .lrdfm ∨ i = .iord ∨ (∃ c, i = .tcfg c) ∨ (∃ xs, i = .sqx xs) ∨
        ∃ x, i = .bqf x) → ∃ w, t.resp = s.resp ++ [w]) ∧
    (¬ (i = .samp ∨ i = .rota ∨ i = .lrdid ∨ i = .lrdfm ∨ i = .iord ∨ (∃ c, i = .tcfg c) ∨ (∃ xs, i = .sqx xs) ∨
        ∃ x, i = .bqf x) → t.resp = s.resp)

/-- R74, R28, R44: no step changes the command stream, the parameters, the environment's scripted answers (log entries 1
to 3) or BUS_MASK. -/
def Obligations.StepKeepsInputs : Prop :=
  ∀ s t : State, step s = .next t →
    t.cs = s.cs ∧ t.cfg = s.cfg ∧ t.env.busIn = s.env.busIn ∧ t.env.rotIn = s.env.rotIn ∧ t.busMask = s.busMask

/-- R75: whether and how the machine steps never depends on the environment's answers: with other answers the same
command comes to the same pins it drives, latch, enable, phase, SETTLE, filter registers, CP and fault. -/
def Obligations.StepIgnoresAnswers : Prop :=
  ∀ (s t : State) (e : Env), step s = .next t → ∃ u, step { s with env := e } = .next u ∧
    busFacing u = busFacing t ∧ u.phase = t.phase ∧ u.settle = t.settle ∧ u.biq = t.biq ∧ u.cp = t.cp ∧
    u.fault = t.fault ∧ u.ioReg = t.ioReg ∧ u.lastValid = t.lastValid ∧ u.ev.length = t.ev.length ∧
    u.resp.length = t.resp.length

/-- R272: a wait is the least number of cycles that lasts the stated time, ceil(T * F_CLK) with T in nanoseconds; the
four read waits are those of 16, 26, 355 and 90 ns, and under REFCFG they are 4, 6, 71 and 18. -/
def Obligations.WaitCyclesAreCeiling : Prop :=
  (∀ (p : Params) (ns : Nat),
    ns * p.fClk ≤ cyclesOf p ns * 1000000000 ∧ ∀ n : Nat, ns * p.fClk ≤ n * 1000000000 → cyclesOf p ns ≤ n) ∧
  (∀ p : Params, wIdHi p = cyclesOf p 16 ∧ wIdLo p = cyclesOf p 26 ∧ wFmHi p = cyclesOf p 355 ∧
    wFmLo p = cyclesOf p 90) ∧
  wIdHi Config.refcfg = 4 ∧ wIdLo Config.refcfg = 6 ∧ wFmHi Config.refcfg = 71 ∧ wFmLo Config.refcfg = 18

/-- R75: two states that differ only in what the environment answered, or will answer, have the same kind of step, and
step to two such states again, whatever their answers: no answer ever reaches a pin the machine drives, a register
besides LAST_READ, CP or FAULT. -/
def Obligations.StepKeepsAgreement : Prop :=
  ∀ s t : State, AgreeButAnswers s t →
    (∀ s' : State, step s = .next s' → ∃ t', step t = .next t' ∧ AgreeButAnswers s' t') ∧
    (∀ f, step s = .fault f → step t = .fault f) ∧ (∀ r, step s = .refused r → step t = .refused r)
end

