-- ==== Sys2Proof/Laws/State.lean ====
section
/-!
SUPPORT. One lemma per field of State per named operation, true by unfolding, so that no proof unfolds a record update.
-/
namespace Sys2Proof.Machine

section
variable (s : State)

/-! ### emit -/

@[simp] theorem State.emit_cs (e : Event) : (s.emit e).cs = s.cs := rfl
@[simp] theorem State.emit_cfg (e : Event) : (s.emit e).cfg = s.cfg := rfl
@[simp] theorem State.emit_env (e : Event) : (s.emit e).env = s.env := rfl
@[simp] theorem State.emit_pins (e : Event) : (s.emit e).pins = s.pins := rfl
@[simp] theorem State.emit_outLatch (e : Event) : (s.emit e).outLatch = s.outLatch := rfl
@[simp] theorem State.emit_busOe (e : Event) : (s.emit e).busOe = s.busOe := rfl
@[simp] theorem State.emit_busMask (e : Event) : (s.emit e).busMask = s.busMask := rfl
@[simp] theorem State.emit_ioReg (e : Event) : (s.emit e).ioReg = s.ioReg := rfl
@[simp] theorem State.emit_lastRead (e : Event) : (s.emit e).lastRead = s.lastRead := rfl
@[simp] theorem State.emit_lastValid (e : Event) : (s.emit e).lastValid = s.lastValid := rfl
@[simp] theorem State.emit_phase (e : Event) : (s.emit e).phase = s.phase := rfl
@[simp] theorem State.emit_biq (e : Event) : (s.emit e).biq = s.biq := rfl
@[simp] theorem State.emit_cp (e : Event) : (s.emit e).cp = s.cp := rfl
@[simp] theorem State.emit_resp (e : Event) : (s.emit e).resp = s.resp := rfl
@[simp] theorem State.emit_ev (e : Event) : (s.emit e).ev = s.ev ++ [e] := rfl
@[simp] theorem State.emit_settle (e : Event) : (s.emit e).settle = s.settle := rfl
@[simp] theorem State.emit_fault (e : Event) : (s.emit e).fault = s.fault := rfl

/-! ### writePin -/

@[simp] theorem State.writePin_cs (p : OutPin) (b : Level) : (s.writePin p b).cs = s.cs := rfl
@[simp] theorem State.writePin_cfg (p : OutPin) (b : Level) : (s.writePin p b).cfg = s.cfg := rfl
@[simp] theorem State.writePin_env (p : OutPin) (b : Level) : (s.writePin p b).env = s.env := rfl
@[simp] theorem State.writePin_pins (p : OutPin) (b : Level) : (s.writePin p b).pins = s.pins.set b p := rfl
@[simp] theorem State.writePin_outLatch (p : OutPin) (b : Level) : (s.writePin p b).outLatch = s.outLatch := rfl
@[simp] theorem State.writePin_busOe (p : OutPin) (b : Level) : (s.writePin p b).busOe = s.busOe := rfl
@[simp] theorem State.writePin_busMask (p : OutPin) (b : Level) : (s.writePin p b).busMask = s.busMask := rfl
@[simp] theorem State.writePin_ioReg (p : OutPin) (b : Level) : (s.writePin p b).ioReg = s.ioReg := rfl
@[simp] theorem State.writePin_lastRead (p : OutPin) (b : Level) : (s.writePin p b).lastRead = s.lastRead := rfl
@[simp] theorem State.writePin_lastValid (p : OutPin) (b : Level) : (s.writePin p b).lastValid = s.lastValid := rfl
@[simp] theorem State.writePin_phase (p : OutPin) (b : Level) : (s.writePin p b).phase = s.phase := rfl
@[simp] theorem State.writePin_biq (p : OutPin) (b : Level) : (s.writePin p b).biq = s.biq := rfl
@[simp] theorem State.writePin_cp (p : OutPin) (b : Level) : (s.writePin p b).cp = s.cp := rfl
@[simp] theorem State.writePin_resp (p : OutPin) (b : Level) : (s.writePin p b).resp = s.resp := rfl
@[simp] theorem State.writePin_ev (p : OutPin) (b : Level) : (s.writePin p b).ev = s.ev ++ [.pinW p (s.pins.get p) b] := rfl
@[simp] theorem State.writePin_settle (p : OutPin) (b : Level) : (s.writePin p b).settle = s.settle := rfl
@[simp] theorem State.writePin_fault (p : OutPin) (b : Level) : (s.writePin p b).fault = s.fault := rfl

/-! ### writeOe -/

@[simp] theorem State.writeOe_cs (b : Level) : (s.writeOe b).cs = s.cs := rfl
@[simp] theorem State.writeOe_cfg (b : Level) : (s.writeOe b).cfg = s.cfg := rfl
@[simp] theorem State.writeOe_env (b : Level) : (s.writeOe b).env = s.env := rfl
@[simp] theorem State.writeOe_pins (b : Level) : (s.writeOe b).pins = s.pins := rfl
@[simp] theorem State.writeOe_outLatch (b : Level) : (s.writeOe b).outLatch = s.outLatch := rfl
@[simp] theorem State.writeOe_busOe (b : Level) : (s.writeOe b).busOe = b := rfl
@[simp] theorem State.writeOe_busMask (b : Level) : (s.writeOe b).busMask = s.busMask := rfl
@[simp] theorem State.writeOe_ioReg (b : Level) : (s.writeOe b).ioReg = s.ioReg := rfl
@[simp] theorem State.writeOe_lastRead (b : Level) : (s.writeOe b).lastRead = s.lastRead := rfl
@[simp] theorem State.writeOe_lastValid (b : Level) : (s.writeOe b).lastValid = s.lastValid := rfl
@[simp] theorem State.writeOe_phase (b : Level) : (s.writeOe b).phase = s.phase := rfl
@[simp] theorem State.writeOe_biq (b : Level) : (s.writeOe b).biq = s.biq := rfl
@[simp] theorem State.writeOe_cp (b : Level) : (s.writeOe b).cp = s.cp := rfl
@[simp] theorem State.writeOe_resp (b : Level) : (s.writeOe b).resp = s.resp := rfl
@[simp] theorem State.writeOe_ev (b : Level) : (s.writeOe b).ev = s.ev ++ [.oeW s.busOe b] := rfl
@[simp] theorem State.writeOe_settle (b : Level) : (s.writeOe b).settle = s.settle := rfl
@[simp] theorem State.writeOe_fault (b : Level) : (s.writeOe b).fault = s.fault := rfl

/-! ### writeLatch -/

@[simp] theorem State.writeLatch_cs (v : Byte) : (s.writeLatch v).cs = s.cs := rfl
@[simp] theorem State.writeLatch_cfg (v : Byte) : (s.writeLatch v).cfg = s.cfg := rfl
@[simp] theorem State.writeLatch_env (v : Byte) : (s.writeLatch v).env = s.env := rfl
@[simp] theorem State.writeLatch_pins (v : Byte) : (s.writeLatch v).pins = s.pins := rfl
@[simp] theorem State.writeLatch_outLatch (v : Byte) : (s.writeLatch v).outLatch = v := rfl
@[simp] theorem State.writeLatch_busOe (v : Byte) : (s.writeLatch v).busOe = s.busOe := rfl
@[simp] theorem State.writeLatch_busMask (v : Byte) : (s.writeLatch v).busMask = s.busMask := rfl
@[simp] theorem State.writeLatch_ioReg (v : Byte) : (s.writeLatch v).ioReg = s.ioReg := rfl
@[simp] theorem State.writeLatch_lastRead (v : Byte) : (s.writeLatch v).lastRead = s.lastRead := rfl
@[simp] theorem State.writeLatch_lastValid (v : Byte) : (s.writeLatch v).lastValid = s.lastValid := rfl
@[simp] theorem State.writeLatch_phase (v : Byte) : (s.writeLatch v).phase = s.phase := rfl
@[simp] theorem State.writeLatch_biq (v : Byte) : (s.writeLatch v).biq = s.biq := rfl
@[simp] theorem State.writeLatch_cp (v : Byte) : (s.writeLatch v).cp = s.cp := rfl
@[simp] theorem State.writeLatch_resp (v : Byte) : (s.writeLatch v).resp = s.resp := rfl
@[simp] theorem State.writeLatch_ev (v : Byte) : (s.writeLatch v).ev = s.ev ++ [.latchW s.outLatch v] := rfl
@[simp] theorem State.writeLatch_settle (v : Byte) : (s.writeLatch v).settle = s.settle := rfl
@[simp] theorem State.writeLatch_fault (v : Byte) : (s.writeLatch v).fault = s.fault := rfl

/-! ### mpinWrite -/

@[simp] theorem State.mpinWrite_cs (w : Word) : (s.mpinWrite w).cs = s.cs := rfl
@[simp] theorem State.mpinWrite_cfg (w : Word) : (s.mpinWrite w).cfg = s.cfg := rfl
@[simp] theorem State.mpinWrite_env (w : Word) : (s.mpinWrite w).env = s.env := rfl
@[simp] theorem State.mpinWrite_pins (w : Word) : (s.mpinWrite w).pins = s.pins := rfl
@[simp] theorem State.mpinWrite_outLatch (w : Word) : (s.mpinWrite w).outLatch = maskedLatch (busField s.busMask) s.outLatch (busField w) := rfl
@[simp] theorem State.mpinWrite_busOe (w : Word) : (s.mpinWrite w).busOe = s.busOe := rfl
@[simp] theorem State.mpinWrite_busMask (w : Word) : (s.mpinWrite w).busMask = s.busMask := rfl
@[simp] theorem State.mpinWrite_ioReg (w : Word) : (s.mpinWrite w).ioReg = s.ioReg := rfl
@[simp] theorem State.mpinWrite_lastRead (w : Word) : (s.mpinWrite w).lastRead = s.lastRead := rfl
@[simp] theorem State.mpinWrite_lastValid (w : Word) : (s.mpinWrite w).lastValid = s.lastValid := rfl
@[simp] theorem State.mpinWrite_phase (w : Word) : (s.mpinWrite w).phase = s.phase := rfl
@[simp] theorem State.mpinWrite_biq (w : Word) : (s.mpinWrite w).biq = s.biq := rfl
@[simp] theorem State.mpinWrite_cp (w : Word) : (s.mpinWrite w).cp = s.cp := rfl
@[simp] theorem State.mpinWrite_resp (w : Word) : (s.mpinWrite w).resp = s.resp := rfl
@[simp] theorem State.mpinWrite_ev (w : Word) : (s.mpinWrite w).ev = s.ev ++ [.latchW s.outLatch (maskedLatch (busField s.busMask) s.outLatch (busField w))] := rfl
@[simp] theorem State.mpinWrite_settle (w : Word) : (s.mpinWrite w).settle = s.settle := rfl
@[simp] theorem State.mpinWrite_fault (w : Word) : (s.mpinWrite w).fault = s.fault := rfl

/-! ### takeSample -/

@[simp] theorem State.takeSample_cs : (s.takeSample).cs = s.cs := rfl
@[simp] theorem State.takeSample_cfg : (s.takeSample).cfg = s.cfg := rfl
@[simp] theorem State.takeSample_env : (s.takeSample).env = s.env.busNext := rfl
@[simp] theorem State.takeSample_pins : (s.takeSample).pins = s.pins := rfl
@[simp] theorem State.takeSample_outLatch : (s.takeSample).outLatch = s.outLatch := rfl
@[simp] theorem State.takeSample_busOe : (s.takeSample).busOe = s.busOe := rfl
@[simp] theorem State.takeSample_busMask : (s.takeSample).busMask = s.busMask := rfl
@[simp] theorem State.takeSample_ioReg : (s.takeSample).ioReg = s.ioReg := rfl
@[simp] theorem State.takeSample_lastRead : (s.takeSample).lastRead = s.lastRead := rfl
@[simp] theorem State.takeSample_lastValid : (s.takeSample).lastValid = s.lastValid := rfl
@[simp] theorem State.takeSample_phase : (s.takeSample).phase = s.phase := rfl
@[simp] theorem State.takeSample_biq : (s.takeSample).biq = s.biq := rfl
@[simp] theorem State.takeSample_cp : (s.takeSample).cp = s.cp := rfl
@[simp] theorem State.takeSample_resp : (s.takeSample).resp = s.resp := rfl
@[simp] theorem State.takeSample_ev : (s.takeSample).ev = s.ev ++ [.samp s.sampleByte] := rfl
@[simp] theorem State.takeSample_settle : (s.takeSample).settle = s.settle := rfl
@[simp] theorem State.takeSample_fault : (s.takeSample).fault = s.fault := rfl

/-! ### takeRotA -/

@[simp] theorem State.takeRotA_cs : (s.takeRotA).cs = s.cs := rfl
@[simp] theorem State.takeRotA_cfg : (s.takeRotA).cfg = s.cfg := rfl
@[simp] theorem State.takeRotA_env : (s.takeRotA).env = s.env.rotNext := rfl
@[simp] theorem State.takeRotA_pins : (s.takeRotA).pins = { s.pins with rotA := s.env.rotAnswer } := rfl
@[simp] theorem State.takeRotA_outLatch : (s.takeRotA).outLatch = s.outLatch := rfl
@[simp] theorem State.takeRotA_busOe : (s.takeRotA).busOe = s.busOe := rfl
@[simp] theorem State.takeRotA_busMask : (s.takeRotA).busMask = s.busMask := rfl
@[simp] theorem State.takeRotA_ioReg : (s.takeRotA).ioReg = s.ioReg := rfl
@[simp] theorem State.takeRotA_lastRead : (s.takeRotA).lastRead = s.lastRead := rfl
@[simp] theorem State.takeRotA_lastValid : (s.takeRotA).lastValid = s.lastValid := rfl
@[simp] theorem State.takeRotA_phase : (s.takeRotA).phase = s.phase := rfl
@[simp] theorem State.takeRotA_biq : (s.takeRotA).biq = s.biq := rfl
@[simp] theorem State.takeRotA_cp : (s.takeRotA).cp = s.cp := rfl
@[simp] theorem State.takeRotA_resp : (s.takeRotA).resp = s.resp := rfl
@[simp] theorem State.takeRotA_ev : (s.takeRotA).ev = s.ev ++ [.rotA s.env.rotAnswer] := rfl
@[simp] theorem State.takeRotA_settle : (s.takeRotA).settle = s.settle := rfl
@[simp] theorem State.takeRotA_fault : (s.takeRotA).fault = s.fault := rfl

/-! ### takeWord -/

@[simp] theorem State.takeWord_cs : (s.takeWord).cs = s.cs := rfl
@[simp] theorem State.takeWord_cfg : (s.takeWord).cfg = s.cfg := rfl
@[simp] theorem State.takeWord_env : (s.takeWord).env = s.env.wordNext := rfl
@[simp] theorem State.takeWord_pins : (s.takeWord).pins = s.pins := rfl
@[simp] theorem State.takeWord_outLatch : (s.takeWord).outLatch = s.outLatch := rfl
@[simp] theorem State.takeWord_busOe : (s.takeWord).busOe = s.busOe := rfl
@[simp] theorem State.takeWord_busMask : (s.takeWord).busMask = s.busMask := rfl
@[simp] theorem State.takeWord_ioReg : (s.takeWord).ioReg = s.ioReg := rfl
@[simp] theorem State.takeWord_lastRead : (s.takeWord).lastRead = s.lastRead := rfl
@[simp] theorem State.takeWord_lastValid : (s.takeWord).lastValid = s.lastValid := rfl
@[simp] theorem State.takeWord_phase : (s.takeWord).phase = s.phase := rfl
@[simp] theorem State.takeWord_biq : (s.takeWord).biq = s.biq := rfl
@[simp] theorem State.takeWord_cp : (s.takeWord).cp = s.cp := rfl
@[simp] theorem State.takeWord_resp : (s.takeWord).resp = s.resp := rfl
@[simp] theorem State.takeWord_ev : (s.takeWord).ev = s.ev := rfl
@[simp] theorem State.takeWord_settle : (s.takeWord).settle = s.settle := rfl
@[simp] theorem State.takeWord_fault : (s.takeWord).fault = s.fault := rfl

/-! ### setSettle -/

@[simp] theorem State.setSettle_cs (t : Settle) : (s.setSettle t).cs = s.cs := rfl
@[simp] theorem State.setSettle_cfg (t : Settle) : (s.setSettle t).cfg = s.cfg := rfl
@[simp] theorem State.setSettle_env (t : Settle) : (s.setSettle t).env = s.env := rfl
@[simp] theorem State.setSettle_pins (t : Settle) : (s.setSettle t).pins = s.pins := rfl
@[simp] theorem State.setSettle_outLatch (t : Settle) : (s.setSettle t).outLatch = s.outLatch := rfl
@[simp] theorem State.setSettle_busOe (t : Settle) : (s.setSettle t).busOe = s.busOe := rfl
@[simp] theorem State.setSettle_busMask (t : Settle) : (s.setSettle t).busMask = s.busMask := rfl
@[simp] theorem State.setSettle_ioReg (t : Settle) : (s.setSettle t).ioReg = s.ioReg := rfl
@[simp] theorem State.setSettle_lastRead (t : Settle) : (s.setSettle t).lastRead = s.lastRead := rfl
@[simp] theorem State.setSettle_lastValid (t : Settle) : (s.setSettle t).lastValid = s.lastValid := rfl
@[simp] theorem State.setSettle_phase (t : Settle) : (s.setSettle t).phase = s.phase := rfl
@[simp] theorem State.setSettle_biq (t : Settle) : (s.setSettle t).biq = s.biq := rfl
@[simp] theorem State.setSettle_cp (t : Settle) : (s.setSettle t).cp = s.cp := rfl
@[simp] theorem State.setSettle_resp (t : Settle) : (s.setSettle t).resp = s.resp := rfl
@[simp] theorem State.setSettle_ev (t : Settle) : (s.setSettle t).ev = s.ev := rfl
@[simp] theorem State.setSettle_settle (t : Settle) : (s.setSettle t).settle = t := rfl
@[simp] theorem State.setSettle_fault (t : Settle) : (s.setSettle t).fault = s.fault := rfl

/-! ### setPhase -/

@[simp] theorem State.setPhase_cs (p : Phase) : (s.setPhase p).cs = s.cs := rfl
@[simp] theorem State.setPhase_cfg (p : Phase) : (s.setPhase p).cfg = s.cfg := rfl
@[simp] theorem State.setPhase_env (p : Phase) : (s.setPhase p).env = s.env := rfl
@[simp] theorem State.setPhase_pins (p : Phase) : (s.setPhase p).pins = s.pins := rfl
@[simp] theorem State.setPhase_outLatch (p : Phase) : (s.setPhase p).outLatch = s.outLatch := rfl
@[simp] theorem State.setPhase_busOe (p : Phase) : (s.setPhase p).busOe = s.busOe := rfl
@[simp] theorem State.setPhase_busMask (p : Phase) : (s.setPhase p).busMask = s.busMask := rfl
@[simp] theorem State.setPhase_ioReg (p : Phase) : (s.setPhase p).ioReg = s.ioReg := rfl
@[simp] theorem State.setPhase_lastRead (p : Phase) : (s.setPhase p).lastRead = s.lastRead := rfl
@[simp] theorem State.setPhase_lastValid (p : Phase) : (s.setPhase p).lastValid = s.lastValid := rfl
@[simp] theorem State.setPhase_phase (p : Phase) : (s.setPhase p).phase = p := rfl
@[simp] theorem State.setPhase_biq (p : Phase) : (s.setPhase p).biq = s.biq := rfl
@[simp] theorem State.setPhase_cp (p : Phase) : (s.setPhase p).cp = s.cp := rfl
@[simp] theorem State.setPhase_resp (p : Phase) : (s.setPhase p).resp = s.resp := rfl
@[simp] theorem State.setPhase_ev (p : Phase) : (s.setPhase p).ev = s.ev := rfl
@[simp] theorem State.setPhase_settle (p : Phase) : (s.setPhase p).settle = s.settle := rfl
@[simp] theorem State.setPhase_fault (p : Phase) : (s.setPhase p).fault = s.fault := rfl

/-! ### push -/

@[simp] theorem State.push_cs (w : Word) : (s.push w).cs = s.cs := rfl
@[simp] theorem State.push_cfg (w : Word) : (s.push w).cfg = s.cfg := rfl
@[simp] theorem State.push_env (w : Word) : (s.push w).env = s.env := rfl
@[simp] theorem State.push_pins (w : Word) : (s.push w).pins = s.pins := rfl
@[simp] theorem State.push_outLatch (w : Word) : (s.push w).outLatch = s.outLatch := rfl
@[simp] theorem State.push_busOe (w : Word) : (s.push w).busOe = s.busOe := rfl
@[simp] theorem State.push_busMask (w : Word) : (s.push w).busMask = s.busMask := rfl
@[simp] theorem State.push_ioReg (w : Word) : (s.push w).ioReg = s.ioReg := rfl
@[simp] theorem State.push_lastRead (w : Word) : (s.push w).lastRead = s.lastRead := rfl
@[simp] theorem State.push_lastValid (w : Word) : (s.push w).lastValid = s.lastValid := rfl
@[simp] theorem State.push_phase (w : Word) : (s.push w).phase = s.phase := rfl
@[simp] theorem State.push_biq (w : Word) : (s.push w).biq = s.biq := rfl
@[simp] theorem State.push_cp (w : Word) : (s.push w).cp = s.cp := rfl
@[simp] theorem State.push_resp (w : Word) : (s.push w).resp = s.resp ++ [w] := rfl
@[simp] theorem State.push_ev (w : Word) : (s.push w).ev = s.ev := rfl
@[simp] theorem State.push_settle (w : Word) : (s.push w).settle = s.settle := rfl
@[simp] theorem State.push_fault (w : Word) : (s.push w).fault = s.fault := rfl

/-! ### advance -/

@[simp] theorem State.advance_cs (n : Nat) : (s.advance n).cs = s.cs := rfl
@[simp] theorem State.advance_cfg (n : Nat) : (s.advance n).cfg = s.cfg := rfl
@[simp] theorem State.advance_env (n : Nat) : (s.advance n).env = s.env := rfl
@[simp] theorem State.advance_pins (n : Nat) : (s.advance n).pins = s.pins := rfl
@[simp] theorem State.advance_outLatch (n : Nat) : (s.advance n).outLatch = s.outLatch := rfl
@[simp] theorem State.advance_busOe (n : Nat) : (s.advance n).busOe = s.busOe := rfl
@[simp] theorem State.advance_busMask (n : Nat) : (s.advance n).busMask = s.busMask := rfl
@[simp] theorem State.advance_ioReg (n : Nat) : (s.advance n).ioReg = s.ioReg := rfl
@[simp] theorem State.advance_lastRead (n : Nat) : (s.advance n).lastRead = s.lastRead := rfl
@[simp] theorem State.advance_lastValid (n : Nat) : (s.advance n).lastValid = s.lastValid := rfl
@[simp] theorem State.advance_phase (n : Nat) : (s.advance n).phase = s.phase := rfl
@[simp] theorem State.advance_biq (n : Nat) : (s.advance n).biq = s.biq := rfl
@[simp] theorem State.advance_cp (n : Nat) : (s.advance n).cp = s.cp + n := rfl
@[simp] theorem State.advance_resp (n : Nat) : (s.advance n).resp = s.resp := rfl
@[simp] theorem State.advance_ev (n : Nat) : (s.advance n).ev = s.ev := rfl
@[simp] theorem State.advance_settle (n : Nat) : (s.advance n).settle = s.settle := rfl
@[simp] theorem State.advance_fault (n : Nat) : (s.advance n).fault = s.fault := rfl

/-! ### setIoReg -/

@[simp] theorem State.setIoReg_cs (b : Byte) : (s.setIoReg b).cs = s.cs := rfl
@[simp] theorem State.setIoReg_cfg (b : Byte) : (s.setIoReg b).cfg = s.cfg := rfl
@[simp] theorem State.setIoReg_env (b : Byte) : (s.setIoReg b).env = s.env := rfl
@[simp] theorem State.setIoReg_pins (b : Byte) : (s.setIoReg b).pins = s.pins := rfl
@[simp] theorem State.setIoReg_outLatch (b : Byte) : (s.setIoReg b).outLatch = s.outLatch := rfl
@[simp] theorem State.setIoReg_busOe (b : Byte) : (s.setIoReg b).busOe = s.busOe := rfl
@[simp] theorem State.setIoReg_busMask (b : Byte) : (s.setIoReg b).busMask = s.busMask := rfl
@[simp] theorem State.setIoReg_ioReg (b : Byte) : (s.setIoReg b).ioReg = b := rfl
@[simp] theorem State.setIoReg_lastRead (b : Byte) : (s.setIoReg b).lastRead = s.lastRead := rfl
@[simp] theorem State.setIoReg_lastValid (b : Byte) : (s.setIoReg b).lastValid = s.lastValid := rfl
@[simp] theorem State.setIoReg_phase (b : Byte) : (s.setIoReg b).phase = s.phase := rfl
@[simp] theorem State.setIoReg_biq (b : Byte) : (s.setIoReg b).biq = s.biq := rfl
@[simp] theorem State.setIoReg_cp (b : Byte) : (s.setIoReg b).cp = s.cp := rfl
@[simp] theorem State.setIoReg_resp (b : Byte) : (s.setIoReg b).resp = s.resp := rfl
@[simp] theorem State.setIoReg_ev (b : Byte) : (s.setIoReg b).ev = s.ev := rfl
@[simp] theorem State.setIoReg_settle (b : Byte) : (s.setIoReg b).settle = s.settle := rfl
@[simp] theorem State.setIoReg_fault (b : Byte) : (s.setIoReg b).fault = s.fault := rfl

/-! ### setLastRead -/

@[simp] theorem State.setLastRead_cs (w : Word) : (s.setLastRead w).cs = s.cs := rfl
@[simp] theorem State.setLastRead_cfg (w : Word) : (s.setLastRead w).cfg = s.cfg := rfl
@[simp] theorem State.setLastRead_env (w : Word) : (s.setLastRead w).env = s.env := rfl
@[simp] theorem State.setLastRead_pins (w : Word) : (s.setLastRead w).pins = s.pins := rfl
@[simp] theorem State.setLastRead_outLatch (w : Word) : (s.setLastRead w).outLatch = s.outLatch := rfl
@[simp] theorem State.setLastRead_busOe (w : Word) : (s.setLastRead w).busOe = s.busOe := rfl
@[simp] theorem State.setLastRead_busMask (w : Word) : (s.setLastRead w).busMask = s.busMask := rfl
@[simp] theorem State.setLastRead_ioReg (w : Word) : (s.setLastRead w).ioReg = s.ioReg := rfl
@[simp] theorem State.setLastRead_lastRead (w : Word) : (s.setLastRead w).lastRead = w := rfl
@[simp] theorem State.setLastRead_lastValid (w : Word) : (s.setLastRead w).lastValid = true := rfl
@[simp] theorem State.setLastRead_phase (w : Word) : (s.setLastRead w).phase = s.phase := rfl
@[simp] theorem State.setLastRead_biq (w : Word) : (s.setLastRead w).biq = s.biq := rfl
@[simp] theorem State.setLastRead_cp (w : Word) : (s.setLastRead w).cp = s.cp := rfl
@[simp] theorem State.setLastRead_resp (w : Word) : (s.setLastRead w).resp = s.resp := rfl
@[simp] theorem State.setLastRead_ev (w : Word) : (s.setLastRead w).ev = s.ev := rfl
@[simp] theorem State.setLastRead_settle (w : Word) : (s.setLastRead w).settle = s.settle := rfl
@[simp] theorem State.setLastRead_fault (w : Word) : (s.setLastRead w).fault = s.fault := rfl

/-! ### setBiquad -/

@[simp] theorem State.setBiquad_cs (b : Biquad) : (s.setBiquad b).cs = s.cs := rfl
@[simp] theorem State.setBiquad_cfg (b : Biquad) : (s.setBiquad b).cfg = s.cfg := rfl
@[simp] theorem State.setBiquad_env (b : Biquad) : (s.setBiquad b).env = s.env := rfl
@[simp] theorem State.setBiquad_pins (b : Biquad) : (s.setBiquad b).pins = s.pins := rfl
@[simp] theorem State.setBiquad_outLatch (b : Biquad) : (s.setBiquad b).outLatch = s.outLatch := rfl
@[simp] theorem State.setBiquad_busOe (b : Biquad) : (s.setBiquad b).busOe = s.busOe := rfl
@[simp] theorem State.setBiquad_busMask (b : Biquad) : (s.setBiquad b).busMask = s.busMask := rfl
@[simp] theorem State.setBiquad_ioReg (b : Biquad) : (s.setBiquad b).ioReg = s.ioReg := rfl
@[simp] theorem State.setBiquad_lastRead (b : Biquad) : (s.setBiquad b).lastRead = s.lastRead := rfl
@[simp] theorem State.setBiquad_lastValid (b : Biquad) : (s.setBiquad b).lastValid = s.lastValid := rfl
@[simp] theorem State.setBiquad_phase (b : Biquad) : (s.setBiquad b).phase = s.phase := rfl
@[simp] theorem State.setBiquad_biq (b : Biquad) : (s.setBiquad b).biq = b := rfl
@[simp] theorem State.setBiquad_cp (b : Biquad) : (s.setBiquad b).cp = s.cp := rfl
@[simp] theorem State.setBiquad_resp (b : Biquad) : (s.setBiquad b).resp = s.resp := rfl
@[simp] theorem State.setBiquad_ev (b : Biquad) : (s.setBiquad b).ev = s.ev := rfl
@[simp] theorem State.setBiquad_settle (b : Biquad) : (s.setBiquad b).settle = s.settle := rfl
@[simp] theorem State.setBiquad_fault (b : Biquad) : (s.setBiquad b).fault = s.fault := rfl

/-! ### raise -/

@[simp] theorem State.raise_cs (k : FaultKind) : (s.raise k).cs = s.cs := rfl
@[simp] theorem State.raise_cfg (k : FaultKind) : (s.raise k).cfg = s.cfg := rfl
@[simp] theorem State.raise_env (k : FaultKind) : (s.raise k).env = s.env := rfl
@[simp] theorem State.raise_pins (k : FaultKind) : (s.raise k).pins = s.pins := rfl
@[simp] theorem State.raise_outLatch (k : FaultKind) : (s.raise k).outLatch = s.outLatch := rfl
@[simp] theorem State.raise_busOe (k : FaultKind) : (s.raise k).busOe = s.busOe := rfl
@[simp] theorem State.raise_busMask (k : FaultKind) : (s.raise k).busMask = s.busMask := rfl
@[simp] theorem State.raise_ioReg (k : FaultKind) : (s.raise k).ioReg = s.ioReg := rfl
@[simp] theorem State.raise_lastRead (k : FaultKind) : (s.raise k).lastRead = s.lastRead := rfl
@[simp] theorem State.raise_lastValid (k : FaultKind) : (s.raise k).lastValid = s.lastValid := rfl
@[simp] theorem State.raise_phase (k : FaultKind) : (s.raise k).phase = s.phase := rfl
@[simp] theorem State.raise_biq (k : FaultKind) : (s.raise k).biq = s.biq := rfl
@[simp] theorem State.raise_cp (k : FaultKind) : (s.raise k).cp = s.cp := rfl
@[simp] theorem State.raise_resp (k : FaultKind) : (s.raise k).resp = s.resp := rfl
@[simp] theorem State.raise_ev (k : FaultKind) : (s.raise k).ev = s.ev := rfl
@[simp] theorem State.raise_settle (k : FaultKind) : (s.raise k).settle = s.settle := rfl
@[simp] theorem State.raise_fault (k : FaultKind) : (s.raise k).fault = match s.fault with | some r => some r | none => some { kind := k, cp := s.cp } := rfl

end

/-! ### Lines and answers -/

@[simp] theorem Pins.set_dir_dir (p : Pins) (b : Level) : (p.set b .dir).dir = b := rfl
@[simp] theorem Pins.set_dir_lcdRd (p : Pins) (b : Level) : (p.set b .dir).lcdRd = p.lcdRd := rfl
@[simp] theorem Pins.set_dir_lcdWr (p : Pins) (b : Level) : (p.set b .dir).lcdWr = p.lcdWr := rfl
@[simp] theorem Pins.set_dir_ioStb (p : Pins) (b : Level) : (p.set b .dir).ioStb = p.ioStb := rfl
@[simp] theorem Pins.set_dir_addr (p : Pins) (b : Level) : (p.set b .dir).addr = p.addr := rfl
@[simp] theorem Pins.set_dir_rotA (p : Pins) (b : Level) : (p.set b .dir).rotA = p.rotA := rfl
@[simp] theorem Pins.set_dir_rotB (p : Pins) (b : Level) : (p.set b .dir).rotB = p.rotB := rfl
@[simp] theorem Pins.set_lcdRd_dir (p : Pins) (b : Level) : (p.set b .lcdRd).dir = p.dir := rfl
@[simp] theorem Pins.set_lcdRd_lcdRd (p : Pins) (b : Level) : (p.set b .lcdRd).lcdRd = b := rfl
@[simp] theorem Pins.set_lcdRd_lcdWr (p : Pins) (b : Level) : (p.set b .lcdRd).lcdWr = p.lcdWr := rfl
@[simp] theorem Pins.set_lcdRd_ioStb (p : Pins) (b : Level) : (p.set b .lcdRd).ioStb = p.ioStb := rfl
@[simp] theorem Pins.set_lcdRd_addr (p : Pins) (b : Level) : (p.set b .lcdRd).addr = p.addr := rfl
@[simp] theorem Pins.set_lcdRd_rotA (p : Pins) (b : Level) : (p.set b .lcdRd).rotA = p.rotA := rfl
@[simp] theorem Pins.set_lcdRd_rotB (p : Pins) (b : Level) : (p.set b .lcdRd).rotB = p.rotB := rfl
@[simp] theorem Pins.set_lcdWr_dir (p : Pins) (b : Level) : (p.set b .lcdWr).dir = p.dir := rfl
@[simp] theorem Pins.set_lcdWr_lcdRd (p : Pins) (b : Level) : (p.set b .lcdWr).lcdRd = p.lcdRd := rfl
@[simp] theorem Pins.set_lcdWr_lcdWr (p : Pins) (b : Level) : (p.set b .lcdWr).lcdWr = b := rfl
@[simp] theorem Pins.set_lcdWr_ioStb (p : Pins) (b : Level) : (p.set b .lcdWr).ioStb = p.ioStb := rfl
@[simp] theorem Pins.set_lcdWr_addr (p : Pins) (b : Level) : (p.set b .lcdWr).addr = p.addr := rfl
@[simp] theorem Pins.set_lcdWr_rotA (p : Pins) (b : Level) : (p.set b .lcdWr).rotA = p.rotA := rfl
@[simp] theorem Pins.set_lcdWr_rotB (p : Pins) (b : Level) : (p.set b .lcdWr).rotB = p.rotB := rfl
@[simp] theorem Pins.set_ioStb_dir (p : Pins) (b : Level) : (p.set b .ioStb).dir = p.dir := rfl
@[simp] theorem Pins.set_ioStb_lcdRd (p : Pins) (b : Level) : (p.set b .ioStb).lcdRd = p.lcdRd := rfl
@[simp] theorem Pins.set_ioStb_lcdWr (p : Pins) (b : Level) : (p.set b .ioStb).lcdWr = p.lcdWr := rfl
@[simp] theorem Pins.set_ioStb_ioStb (p : Pins) (b : Level) : (p.set b .ioStb).ioStb = b := rfl
@[simp] theorem Pins.set_ioStb_addr (p : Pins) (b : Level) : (p.set b .ioStb).addr = p.addr := rfl
@[simp] theorem Pins.set_ioStb_rotA (p : Pins) (b : Level) : (p.set b .ioStb).rotA = p.rotA := rfl
@[simp] theorem Pins.set_ioStb_rotB (p : Pins) (b : Level) : (p.set b .ioStb).rotB = p.rotB := rfl
@[simp] theorem Pins.set_addr_dir (p : Pins) (b : Level) : (p.set b .addr).dir = p.dir := rfl
@[simp] theorem Pins.set_addr_lcdRd (p : Pins) (b : Level) : (p.set b .addr).lcdRd = p.lcdRd := rfl
@[simp] theorem Pins.set_addr_lcdWr (p : Pins) (b : Level) : (p.set b .addr).lcdWr = p.lcdWr := rfl
@[simp] theorem Pins.set_addr_ioStb (p : Pins) (b : Level) : (p.set b .addr).ioStb = p.ioStb := rfl
@[simp] theorem Pins.set_addr_addr (p : Pins) (b : Level) : (p.set b .addr).addr = b := rfl
@[simp] theorem Pins.set_addr_rotA (p : Pins) (b : Level) : (p.set b .addr).rotA = p.rotA := rfl
@[simp] theorem Pins.set_addr_rotB (p : Pins) (b : Level) : (p.set b .addr).rotB = p.rotB := rfl
@[simp] theorem Pins.get_dir (p : Pins) : p.get .dir = p.dir := rfl
@[simp] theorem Pins.get_lcdRd (p : Pins) : p.get .lcdRd = p.lcdRd := rfl
@[simp] theorem Pins.get_lcdWr (p : Pins) : p.get .lcdWr = p.lcdWr := rfl
@[simp] theorem Pins.get_ioStb (p : Pins) : p.get .ioStb = p.ioStb := rfl
@[simp] theorem Pins.get_addr (p : Pins) : p.get .addr = p.addr := rfl

@[simp] theorem Pins.set_rotA (p : Pins) (b : Level) (q : OutPin) : (p.set b q).rotA = p.rotA := by cases q <;> rfl
@[simp] theorem Pins.set_rotB (p : Pins) (b : Level) (q : OutPin) : (p.set b q).rotB = p.rotB := by cases q <;> rfl
@[simp] theorem Pins.get_set (p : Pins) (b : Level) (q : OutPin) : (p.set b q).get q = b := by cases q <;> rfl

@[simp] theorem Env.busNext_busIn (e : Env) : e.busNext.busIn = e.busIn := rfl
@[simp] theorem Env.busNext_rotIn (e : Env) : e.busNext.rotIn = e.rotIn := rfl
@[simp] theorem Env.busNext_busDraws (e : Env) : e.busNext.busDraws = e.busDraws + 1 := rfl
@[simp] theorem Env.busNext_rotDraws (e : Env) : e.busNext.rotDraws = e.rotDraws := rfl
@[simp] theorem Env.busNext_wordDraws (e : Env) : e.busNext.wordDraws = e.wordDraws := rfl
@[simp] theorem Env.rotNext_busIn (e : Env) : e.rotNext.busIn = e.busIn := rfl
@[simp] theorem Env.rotNext_rotIn (e : Env) : e.rotNext.rotIn = e.rotIn := rfl
@[simp] theorem Env.rotNext_busDraws (e : Env) : e.rotNext.busDraws = e.busDraws := rfl
@[simp] theorem Env.rotNext_rotDraws (e : Env) : e.rotNext.rotDraws = e.rotDraws + 1 := rfl
@[simp] theorem Env.rotNext_wordDraws (e : Env) : e.rotNext.wordDraws = e.wordDraws := rfl
@[simp] theorem Env.wordNext_busIn (e : Env) : e.wordNext.busIn = e.busIn := rfl
@[simp] theorem Env.wordNext_rotIn (e : Env) : e.wordNext.rotIn = e.rotIn := rfl
@[simp] theorem Env.wordNext_busDraws (e : Env) : e.wordNext.busDraws = e.busDraws := rfl
@[simp] theorem Env.wordNext_rotDraws (e : Env) : e.wordNext.rotDraws = e.rotDraws := rfl
@[simp] theorem Env.wordNext_wordDraws (e : Env) : e.wordNext.wordDraws = e.wordDraws + 1 := rfl

end Sys2Proof.Machine
end

