-- ==== Sys2Proof/Laws/Bits.lean ====
section
/-!
SUPPORT. The byte operations of 40_bus_primitives.md under the constant of BUS_MASK (10_state.md rule R28).
-/
namespace Sys2Proof.Machine

@[simp] theorem busField_busMaskReset : busField Config.busMaskReset = 0x00#8 := by decide

@[simp] theorem busField_zero : busField 0x00000000#32 = 0x00#8 := by decide

/-- Under the constant mask field a masked write takes every bit. -/
@[simp] theorem maskedLatch_zero (old new : Byte) : maskedLatch 0x00#8 old new = new := by
  have h : ~~~(0x00#8) = BitVec.allOnes 8 := by decide
  rw [maskedLatch, h, BitVec.and_allOnes, BitVec.and_zero, BitVec.zero_or]

/-- A masked write is idempotent, whatever the mask (R135). -/
theorem maskedLatch_idem (m old new : Byte) : maskedLatch m (maskedLatch m old new) new = maskedLatch m old new := by
  apply BitVec.eq_of_getLsbD_eq
  intro k _
  simp only [maskedLatch, BitVec.getLsbD_or, BitVec.getLsbD_and, BitVec.getLsbD_not]
  cases m.getLsbD k <;> simp

/-- DRVL puts `value[7:0]` in the bus field (R29, R122). -/
@[simp] theorem busField_shifted (v : Half) : busField (v.setWidth 32 <<< 8) = lowByte v := by
  apply BitVec.eq_of_getLsbD_eq
  intro k hk
  simp only [busField, lowByte, BitVec.getLsbD_extractLsb', BitVec.getLsbD_shiftLeft, BitVec.getLsbD_setWidth]
  have h1 : 8 + k < 32 := by omega
  have h2 : ¬ 8 + k < 8 := by omega
  have h3 : k < 32 := by omega
  simp [hk, h1, h2, h3]

/-- DRVH puts `value[15:8]` in the bus field (R29, R123). -/
@[simp] theorem busField_unshifted (v : Half) : busField (v.setWidth 32) = highByte v := by
  apply BitVec.eq_of_getLsbD_eq
  intro k hk
  have h1 : 8 + k < 32 := by omega
  simp [busField, highByte, hk, h1]

@[simp] theorem lowByte_byteValue (b : Byte) : lowByte (byteValue b) = b := by
  apply BitVec.eq_of_getLsbD_eq
  intro k hk
  have h1 : k < 16 := by omega
  simp [lowByte, byteValue, hk, h1]

@[simp] theorem highByte_zero : highByte 0x0000#16 = 0x00#8 := by decide

/-- Under the constant mask a sample sees the bus pins (R29, R124). -/
theorem sampleByte_of_mask (s : State) (h : s.busMask = Config.busMaskReset) : s.sampleByte = s.busRead := by
  apply BitVec.eq_of_getLsbD_eq
  intro k hk
  have h1 : 8 + k < 32 := by omega
  have h2 : k < 32 := by omega
  simp only [State.sampleByte, State.mpinRead, respByte, h, Config.busMaskReset, BitVec.getLsbD_setWidth,
    BitVec.getLsbD_ushiftRight, BitVec.getLsbD_and, BitVec.getLsbD_shiftLeft, BitVec.getLsbD_not]
  have h3 : (0xFFFF00FF#32).getLsbD (8 + k) = false := by
    have : k = 0 ∨ k = 1 ∨ k = 2 ∨ k = 3 ∨ k = 4 ∨ k = 5 ∨ k = 6 ∨ k = 7 := by omega
    rcases this with rfl | rfl | rfl | rfl | rfl | rfl | rfl | rfl <;> decide
  have h4 : ¬ 8 + k < 8 := by omega
  rw [h3]
  simp [hk, h1, h2, h4]

@[simp] theorem busRead_driving (s : State) (h : s.busOe = true) : s.busRead = s.outLatch := by simp [State.busRead, h]

@[simp] theorem busRead_listening (s : State) (h : s.busOe = false) : s.busRead = s.env.busAnswer := by
  simp [State.busRead, h]

/-- A response pair fits 16 bits (R9). -/
theorem respPair_toNat (hi lo : Byte) : (respPair hi lo).toNat = hi.toNat * 256 + lo.toNat := by
  have h1 := hi.isLt
  have h2 := lo.isLt
  simp only [respPair, BitVec.toNat_setWidth, BitVec.toNat_append]
  rw [← Nat.shiftLeft_add_eq_or_of_lt h2, Nat.shiftLeft_eq]
  omega

/-- A byte response is below 256 (R101, D40). -/
theorem respByte_lt (b : Byte) : (respByte b).toNat < 256 := by
  have := b.isLt
  simp only [respByte, BitVec.toNat_setWidth]
  omega

end Sys2Proof.Machine
end

