-- ==== Sys2Proof/Laws/Uops.lean ====
section
/-!
SUPPORT. What the shared operations can do, said once: a micro-operation, a sequence of them, a data write and a read
transaction (40_bus_primitives.md rule R120, 41_lcd_transactions.md rule R150).
-/
namespace Sys2Proof.Machine

/-! ### Progress -/

@[simp] theorem Progress.andThen_ok (s : State) (f : State → Progress) : (Progress.ok s).andThen f = f s := rfl

@[simp] theorem Progress.andThen_raised (k : FaultKind) (s : State) (f : State → Progress) :
    (Progress.raised k s).andThen f = .raised k s := rfl

@[simp] theorem Progress.outcome_ok (s : State) : (Progress.ok s).outcome = .next s := rfl

@[simp] theorem Progress.outcome_raised (k : FaultKind) (s : State) : (Progress.raised k s).outcome = .next (s.raise k) := rfl

/-- A command goes on to the end only if every part does. -/
theorem Progress.andThen_eq_ok {p : Progress} {f : State → Progress} {t : State} (h : p.andThen f = .ok t) :
    ∃ s, p = .ok s ∧ f s = .ok t := by
  cases p with
  | ok s => exact ⟨s, rfl, h⟩
  | raised k s => cases h

/-- The state a command has come to, whether or not a check has failed. -/
def Progress.last : Progress → State
  | .ok s => s
  | .raised _ s => s

@[simp] theorem Progress.last_ok (s : State) : (Progress.ok s).last = s := rfl

@[simp] theorem Progress.last_raised (k : FaultKind) (s : State) : (Progress.raised k s).last = s := rfl

/-- Every command answers a next state: the one it has come to, perhaps with a fault recorded. -/
theorem Progress.outcome_next (p : Progress) : ∃ t, p.outcome = .next t ∧ (t = p.last ∨ ∃ k, t = p.last.raise k) := by
  cases p with
  | ok s => exact ⟨s, rfl, .inl rfl⟩
  | raised k s => exact ⟨s.raise k, rfl, .inr ⟨k, rfl⟩⟩

theorem raise_of_empty {s : State} (h : s.fault = none) (k : FaultKind) :
    s.raise k = { s with fault := some { kind := k, cp := s.cp } } := by
  simp [State.raise, h]

/-! ### Settle -/

@[simp] theorem Settle.add_cycles (m n : Nat) : (Settle.cycles m).add n = .cycles (m + n) := rfl

@[simp] theorem Settle.add_inf (n : Nat) : Settle.inf.add n = .inf := rfl

@[simp] theorem Settle.short_cycles (m : Nat) : (Settle.cycles m).short = decide (m < Config.wSetup) := rfl

@[simp] theorem Settle.short_inf : Settle.inf.short = false := rfl

/-! ### The effect of each micro-operation (R121 to R133) -/

section
variable (s : State)

@[simp] theorem Uop.effect_setdir_write : (Uop.setdir false).effect s =
    ((s.writePin .dir false).writeOe true).setSettle (.cycles 0) := rfl
@[simp] theorem Uop.effect_setdir_read : (Uop.setdir true).effect s =
    ((s.writeOe false).writePin .dir true).setSettle (.cycles 0) := rfl
@[simp] theorem Uop.effect_drvl (v : Half) : (Uop.drvl v).effect s =
    (s.mpinWrite (v.setWidth 32 <<< 8)).setSettle (.cycles 0) := rfl
@[simp] theorem Uop.effect_drvh (v : Half) : (Uop.drvh v).effect s =
    (s.mpinWrite (v.setWidth 32)).setSettle (.cycles 0) := rfl
@[simp] theorem Uop.effect_samp : Uop.samp.effect s = s.takeSample := rfl
@[simp] theorem Uop.effect_addr (a : Level) : (Uop.addr a).effect s = (s.writePin .addr a).setSettle (.cycles 0) := rfl
@[simp] theorem Uop.effect_rda : Uop.rda.effect s = (s.writePin .lcdRd false).setSettle (.cycles 0) := rfl
@[simp] theorem Uop.effect_rdd : Uop.rdd.effect s = (s.writePin .lcdRd true).setSettle (.cycles 0) := rfl
@[simp] theorem Uop.effect_wra : Uop.wra.effect s = (s.writePin .lcdWr false).setSettle (.cycles 0) := rfl
@[simp] theorem Uop.effect_wrd : Uop.wrd.effect s = (s.writePin .lcdWr true).setSettle (.cycles 0) := rfl
@[simp] theorem Uop.effect_stba : Uop.stba.effect s = (s.writePin .ioStb false).setSettle (.cycles 0) := rfl
@[simp] theorem Uop.effect_stbd : Uop.stbd.effect s = (s.writePin .ioStb true).setSettle (.cycles 0) := rfl
@[simp] theorem Uop.effect_wait (n : Nat) : (Uop.wait n).effect s =
    (s.emit (.wait .spin n)).setSettle (s.settle.add n) := rfl
@[simp] theorem Uop.effect_pdelay (n : Nat) : (Uop.pdelay n).effect s =
    (s.emit (.wait .polled n)).setSettle (s.settle.add n) := rfl

end

/-- The requirement is met exactly when SETTLE is long enough (R265). -/
theorem settleCheck_eq_none {s : State} : s.settleCheck = none ↔ s.settle.short = false := by
  unfold State.settleCheck
  cases s.settle.short <;> simp

/-! ### Micro-operations -/

theorem runUops_nil (s : State) : runUops [] s = .ok s := rfl

/-- One micro-operation whose requirement is met, then the rest. -/
theorem runUops_cons_ok {u : Uop} {s : State} (us : List Uop) (h : u.check s = none) :
    runUops (u :: us) s = runUops us (u.effect s) := by
  simp [runUops, Uop.run, h]

/-- A micro-operation whose requirement is not met stops the sequence. -/
theorem runUops_cons_raised {u : Uop} {s : State} {k : FaultKind} (us : List Uop) (h : u.check s = some k) :
    runUops (u :: us) s = .raised k s := by
  simp [runUops, Uop.run, h]

theorem runUops_append (us vs : List Uop) (s : State) :
    runUops (us ++ vs) s = (runUops us s).andThen (runUops vs) := by
  induction us generalizing s with
  | nil => rfl
  | cons u us ih =>
    cases h : u.check s with
    | none => rw [List.cons_append, runUops_cons_ok _ h, runUops_cons_ok _ h, ih]
    | some k => rw [List.cons_append, runUops_cons_raised _ h, runUops_cons_raised _ h]; rfl

/-- A relation every micro-operation keeps, a sequence keeps as far as it runs. -/
theorem runUops_last_rel (R : State → State → Prop) (hrefl : ∀ s, R s s)
    (htrans : ∀ {a b c}, R a b → R b c → R a c) (hu : ∀ (u : Uop) s, R s (u.effect s)) (us : List Uop) (s : State) :
    R s (runUops us s).last := by
  induction us generalizing s with
  | nil => exact hrefl s
  | cons u us ih =>
    cases h : u.check s with
    | none => rw [runUops_cons_ok _ h]; exact htrans (hu u s) (ih _)
    | some k => rw [runUops_cons_raised _ h]; exact hrefl s

/-- What no micro-operation changes (R120 to R133). -/
structure UopKeeps (s t : State) : Prop where
  cs : t.cs = s.cs
  cfg : t.cfg = s.cfg
  busIn : t.env.busIn = s.env.busIn
  rotIn : t.env.rotIn = s.env.rotIn
  rotA : t.pins.rotA = s.pins.rotA
  rotB : t.pins.rotB = s.pins.rotB
  busMask : t.busMask = s.busMask
  ioReg : t.ioReg = s.ioReg
  lastRead : t.lastRead = s.lastRead
  lastValid : t.lastValid = s.lastValid
  phase : t.phase = s.phase
  biq : t.biq = s.biq
  cp : t.cp = s.cp
  resp : t.resp = s.resp
  fault : t.fault = s.fault
  ev : ∃ es, t.ev = s.ev ++ es ∧ ∀ e ∈ es, e.isAbstract = false

theorem UopKeeps.refl (s : State) : UopKeeps s s :=
  ⟨rfl, rfl, rfl, rfl, rfl, rfl, rfl, rfl, rfl, rfl, rfl, rfl, rfl, rfl, rfl, [], by simp, by simp⟩

theorem UopKeeps.trans {a b c : State} (h : UopKeeps a b) (k : UopKeeps b c) : UopKeeps a c := by
  obtain ⟨es, he, hae⟩ := h.ev
  obtain ⟨fs, hf, haf⟩ := k.ev
  refine ⟨k.cs.trans h.cs, k.cfg.trans h.cfg, k.busIn.trans h.busIn, k.rotIn.trans h.rotIn, k.rotA.trans h.rotA,
    k.rotB.trans h.rotB, k.busMask.trans h.busMask, k.ioReg.trans h.ioReg, k.lastRead.trans h.lastRead,
    k.lastValid.trans h.lastValid, k.phase.trans h.phase, k.biq.trans h.biq, k.cp.trans h.cp, k.resp.trans h.resp,
    k.fault.trans h.fault, es ++ fs, by rw [hf, he, List.append_assoc], ?_⟩
  intro e hmem
  rcases List.mem_append.1 hmem with hm | hm
  · exact hae e hm
  · exact haf e hm

theorem Uop.effect_keeps (u : Uop) (s : State) : UopKeeps s (u.effect s) := by
  cases u with
  | setdir d =>
    cases d <;>
      exact ⟨rfl, rfl, rfl, rfl, rfl, rfl, rfl, rfl, rfl, rfl, rfl, rfl, rfl, rfl, rfl, [_, _],
        by simp [Uop.effect]; exact ⟨rfl, rfl⟩, by simp [Event.isAbstract]⟩
  | _ =>
    exact ⟨rfl, rfl, rfl, rfl, rfl, rfl, rfl, rfl, rfl, rfl, rfl, rfl, rfl, rfl, rfl, [_], rfl,
      by simp [Event.isAbstract]⟩

/-- What no sequence of micro-operations changes. -/
theorem runUops_keeps (us : List Uop) (s : State) : UopKeeps s (runUops us s).last :=
  runUops_last_rel UopKeeps UopKeeps.refl UopKeeps.trans Uop.effect_keeps us s

/-- No micro-operation brings the host and the CPLD to drive the bus at once (R42). -/
theorem Uop.effect_dirOe (u : Uop) (s : State) :
    (∃ d, u = .setdir d ∧ (u.effect s).pins.dir = d ∧ (u.effect s).busOe = !d) ∨
      ((u.effect s).pins.dir = s.pins.dir ∧ (u.effect s).busOe = s.busOe) := by
  cases u with
  | setdir d => left; cases d <;> exact ⟨_, rfl, rfl, rfl⟩
  | _ => right; exact ⟨rfl, rfl⟩

/-- A primitive command whose requirement is met (R120). -/
theorem primitive_ok {u : Uop} {s : State} (h : u.check s = none) :
    primitive u s = .ok (((u.effect s).setPhase (u.phaseAfter s.phase)).advance 1) := by
  have hp : (u.effect s).phase = s.phase := (Uop.effect_keeps u s).phase
  simp [primitive, Uop.run, h, hp]

/-- A primitive command whose requirement is not met (R120). -/
theorem primitive_raised {u : Uop} {s : State} {k : FaultKind} (h : u.check s = some k) :
    primitive u s = .raised k s := by
  simp [primitive, Uop.run, h]

/-! ### Transactions -/

/-- The state after one write pulse: P_LCD_WR, SETTLE and EV change, nothing else (R150 step (4)). -/
def State.afterPulse (s : State) : State :=
  { s with
    pins := { s.pins with lcdWr := deasserted }, settle := .cycles 0, ev := s.ev ++ pulseEvents s.pins.lcdWr }

section
variable (s : State)

@[simp] theorem State.afterPulse_cs : s.afterPulse.cs = s.cs := rfl
@[simp] theorem State.afterPulse_cfg : s.afterPulse.cfg = s.cfg := rfl
@[simp] theorem State.afterPulse_env : s.afterPulse.env = s.env := rfl
@[simp] theorem State.afterPulse_pins : s.afterPulse.pins = { s.pins with lcdWr := deasserted } := rfl
@[simp] theorem State.afterPulse_outLatch : s.afterPulse.outLatch = s.outLatch := rfl
@[simp] theorem State.afterPulse_busOe : s.afterPulse.busOe = s.busOe := rfl
@[simp] theorem State.afterPulse_busMask : s.afterPulse.busMask = s.busMask := rfl
@[simp] theorem State.afterPulse_ioReg : s.afterPulse.ioReg = s.ioReg := rfl
@[simp] theorem State.afterPulse_lastRead : s.afterPulse.lastRead = s.lastRead := rfl
@[simp] theorem State.afterPulse_lastValid : s.afterPulse.lastValid = s.lastValid := rfl
@[simp] theorem State.afterPulse_phase : s.afterPulse.phase = s.phase := rfl
@[simp] theorem State.afterPulse_biq : s.afterPulse.biq = s.biq := rfl
@[simp] theorem State.afterPulse_cp : s.afterPulse.cp = s.cp := rfl
@[simp] theorem State.afterPulse_resp : s.afterPulse.resp = s.resp := rfl
@[simp] theorem State.afterPulse_ev : s.afterPulse.ev = s.ev ++ pulseEvents s.pins.lcdWr := rfl
@[simp] theorem State.afterPulse_settle : s.afterPulse.settle = .cycles 0 := rfl
@[simp] theorem State.afterPulse_fault : s.afterPulse.fault = s.fault := rfl

end

/-- One write pulse: it always meets the settle rule (R150 step (6)). -/
theorem runUops_writePulse (us : List Uop) (s : State) : runUops (writePulse ++ us) s = runUops us s.afterPulse := by
  have hc : ∀ x : Settle, (x.add Config.wSetup).short = false := by
    intro x
    cases x <;> simp
  simp only [writePulse, List.cons_append, List.nil_append, runUops, Uop.run, Uop.check, Uop.effect,
    State.settleCheck, State.setSettle_settle, hc, Progress.andThen_ok, Bool.false_eq_true, if_false]
  refine congrArg (runUops us) ?_
  apply State.ext <;> simp [pulseEvents, deasserted, Pins.set]

/-- A data write always completes (R150 step (6), R152), whatever BUS_MASK holds: the effects of its parts. -/
theorem dataWrite_ok (v : Half) (s : State) : dataWrite v s =
    .ok (((Uop.drvl v).effect ((Uop.drvh v).effect s).afterPulse).afterPulse.emit
      (.lcdWrite true (highByte v) (lowByte v))) := by
  have e : writePulse = writePulse ++ [] := by simp
  rw [dataWrite, List.cons_append, runUops_cons_ok _ rfl, runUops_writePulse, runUops_cons_ok _ rfl, e,
    runUops_writePulse, runUops_nil, Progress.andThen_ok]

/-- Under the constant of BUS_MASK this is all a data write does. -/
theorem dataWrite_eq (v : Half) {s : State} (h : s.busMask = Config.busMaskReset) :
    dataWrite v s = .ok (afterDataWrite s v) := by
  rw [dataWrite_ok]
  refine congrArg Progress.ok ?_
  apply State.ext <;> simp [afterDataWrite, dataWriteEvents, h]

/-- Data writes one after the other always complete, whatever BUS_MASK holds. -/
theorem dataWrites_ok (vs : List Half) (s : State) : ∃ t, dataWrites vs s = .ok t := by
  induction vs generalizing s with
  | nil => exact ⟨s, rfl⟩
  | cons v vs ih =>
    obtain ⟨t, ht⟩ := ih (((Uop.drvl v).effect ((Uop.drvh v).effect s).afterPulse).afterPulse.emit
      (.lcdWrite true (highByte v) (lowByte v)))
    exact ⟨t, by rw [dataWrites, dataWrite_ok, Progress.andThen_ok, ht]⟩

@[simp] theorem afterDataWrite_busMask (s : State) (v : Half) : (afterDataWrite s v).busMask = s.busMask := rfl

/-- Data writes one after the other (R154, R155). -/
theorem dataWrites_eq (vs : List Half) {s : State} (h : s.busMask = Config.busMaskReset) :
    dataWrites vs s = .ok (vs.foldl afterDataWrite s) := by
  induction vs generalizing s with
  | nil => rfl
  | cons v vs ih => 
    have h' : (afterDataWrite s v).busMask = Config.busMaskReset := h
    rw [dataWrites, dataWrite_eq v h, Progress.andThen_ok, ih h', List.foldl_cons]

theorem foldl_afterDataWrite_cp (vs : List Half) (s : State) : (vs.foldl afterDataWrite s).cp = s.cp := by
  induction vs generalizing s with
  | nil => rfl
  | cons v vs ih => rw [List.foldl_cons, ih]; rfl

/-- A fast-path command in the phase it requires (R33, R152 to R157). -/
theorem fastWrite_eq (vs : List Half) (len : Nat) {s : State} (h : s.busMask = Config.busMaskReset)
    (hp : vs = [] ∨ s.phase = .dataPhase) :
    fastWrite vs len s = .ok { vs.foldl afterDataWrite s with cp := s.cp + len } := by
  have hreq : (if vs.isEmpty then Progress.ok s else requireDataPhase s) = .ok s := by
    rcases hp with rfl | hp
    · rfl
    · simp [requireDataPhase, State.guardWith, hp, Phase.writable]
  rw [fastWrite, hreq, Progress.andThen_ok, dataWrites_eq vs h, Progress.andThen_ok, State.advance,
    foldl_afterDataWrite_cp]

/-- A fast-path command in another phase does nothing but raise (R152, R231). -/
theorem fastWrite_raised {vs : List Half} (len : Nat) {s : State} (hv : vs ≠ []) (hp : s.phase ≠ .dataPhase) :
    fastWrite vs len s = .raised (.phaseViolation s.phase) s := by
  have h1 : vs.isEmpty = false := by cases vs <;> simp_all
  have h2 : s.phase.writable = false := by cases hq : s.phase <;> simp_all [Phase.writable]
  simp [fastWrite, h1, requireDataPhase, State.guardWith, h2]

/-- The wait of an LCD read, as its profile spells it (R158, R159). -/
def waitUop (kind : WaitKind) (n : Nat) : Uop :=
  match kind with
  | .spin => .wait n
  | .polled => .pdelay n

@[simp] theorem waitUop_check (kind : WaitKind) (n : Nat) (s : State) : (waitUop kind n).check s = none := by
  cases kind <;> rfl

@[simp] theorem waitUop_effect (kind : WaitKind) (n : Nat) (s : State) :
    (waitUop kind n).effect s = (s.emit (.wait kind n)).setSettle (s.settle.add n) := by
  cases kind <;> rfl

/-- The state in which an LCD read samples the high byte (R158 steps 1 to 3). -/
def readHighState (kind : WaitKind) (nHi : Nat) (s : State) : State :=
  (waitUop kind nHi).effect (Uop.rda.effect (((Uop.setdir true).effect s).setPhase .readPhase))

/-- The state in which an LCD read samples the low byte (R158 steps 4 to 6). -/
def readLowState (kind : WaitKind) (nHi nLo : Nat) (s : State) : State :=
  (waitUop kind nLo).effect (Uop.rdd.effect (Uop.samp.effect (readHighState kind nHi s)))

/-- A sample is allowed when the host listens and SETTLE is long enough (R124). -/
theorem samp_check {s : State} {n : Nat} (h : s.busOe = false) (hs : s.settle = .cycles n) (hn : Config.wSetup ≤ n) :
    Uop.samp.check s = none := by
  have hlt : ¬ n < Config.wSetup := by omega
  simp [Uop.check, State.settleCheck, h, hs, hlt]

/-- An LCD read in a phase it requires, with waits of the settle wait at least, completes whatever BUS_MASK holds
(R150 step (6), R158, R159). -/
theorem readTransaction_ok (profile : Profile) (kind : WaitKind) {nHi nLo : Nat} {s : State}
    (hp : s.phase.readable = true) (h1 : Config.wSetup ≤ nHi) (h2 : Config.wSetup ≤ nLo) :
    readTransaction profile (waitUop kind nHi) (waitUop kind nLo) s =
      .ok ((((Uop.samp.effect (readLowState kind nHi nLo s)).emit
        (.lcdRead profile (readHighState kind nHi s).sampleByte (readLowState kind nHi nLo s).sampleByte)).push
        (respPair (readHighState kind nHi s).sampleByte (readLowState kind nHi nLo s).sampleByte)).advance 1) := by
  have c1 : Uop.samp.check (readHighState kind nHi s) = none :=
    samp_check (n := nHi) (by simp [readHighState]) (by simp [readHighState]) h1
  have c2 : Uop.samp.check (readLowState kind nHi nLo s) = none :=
    samp_check (n := nLo) (by simp [readLowState, readHighState])
      (by simp [readLowState]) h2
  have e1 : requireReadable s = .ok s := by simp [requireReadable, State.guardWith, hp]
  have e2 : runUops [.rda, waitUop kind nHi] (((Uop.setdir true).effect s).setPhase .readPhase) =
      .ok (readHighState kind nHi s) := by
    rw [runUops_cons_ok _ rfl, runUops_cons_ok _ (waitUop_check ..), runUops_nil]
    rfl
  have e3 : runUops [.samp, .rdd, waitUop kind nLo] (readHighState kind nHi s) = .ok (readLowState kind nHi nLo s) := by
    rw [runUops_cons_ok _ c1, runUops_cons_ok _ rfl, runUops_cons_ok _ (waitUop_check ..), runUops_nil]
    rfl
  rw [readTransaction, e1, Progress.andThen_ok, runUops_cons_ok _ rfl, runUops_nil, Progress.andThen_ok, e2,
    Progress.andThen_ok, e3, Progress.andThen_ok, runUops_cons_ok _ c2, runUops_nil, Progress.andThen_ok]

/-- Under the constant of BUS_MASK this is all an LCD read does. -/
theorem readTransaction_eq (profile : Profile) (kind : WaitKind) {nHi nLo : Nat} {s : State}
    (h : s.busMask = Config.busMaskReset) (hp : s.phase.readable = true)
    (h1 : Config.wSetup ≤ nHi) (h2 : Config.wSetup ≤ nLo) :
    readTransaction profile (waitUop kind nHi) (waitUop kind nLo) s = .ok (afterRead profile kind nHi nLo s) := by
  rw [readTransaction_ok profile kind hp h1 h2]
  refine congrArg Progress.ok ?_
  apply State.ext <;>
    simp [readLowState, readHighState, afterRead, readEvents, deasserted, Pins.set, sampleByte_of_mask,
      State.busRead, h]

/-- An LCD read in another phase does nothing but raise (R158, R231). -/
theorem readTransaction_raised (profile : Profile) (uHi uLo : Uop) {s : State} (hp : s.phase.readable = false) :
    readTransaction profile uHi uLo s = .raised (.phaseViolation s.phase) s := by
  simp [readTransaction, requireReadable, State.guardWith, hp]

end Sys2Proof.Machine
end

