-- ==== Sys2Proof/Laws/Exec.lean ====
section
/-!
SUPPORT. Each arm of `exec` as the shared operation it calls, the transactions as the effects of their
micro-operations, and what fetch finds where a command decodes.
-/
namespace Sys2Proof.Machine

section
variable (s : State)

theorem exec_setdir (d : Level) : exec (.setdir d) s = (primitive (.setdir d) s).outcome := rfl
theorem exec_drvl (v : Half) : exec (.drvl v) s = (primitive (.drvl v) s).outcome := rfl
theorem exec_drvh (v : Half) : exec (.drvh v) s = (primitive (.drvh v) s).outcome := rfl
theorem exec_samp : exec .samp s =
    ((primitive .samp s).andThen fun t => .ok (t.push (respByte s.sampleByte))).outcome := rfl
theorem exec_addr (a : Level) : exec (.addr a) s = (primitive (.addr a) s).outcome := rfl
theorem exec_rda : exec .rda s = (primitive .rda s).outcome := rfl
theorem exec_rdd : exec .rdd s = (primitive .rdd s).outcome := rfl
theorem exec_wra : exec .wra s = (primitive .wra s).outcome := rfl
theorem exec_wrd : exec .wrd s = (primitive .wrd s).outcome := rfl
theorem exec_stba : exec .stba s = (primitive .stba s).outcome := rfl
theorem exec_stbd : exec .stbd s = (primitive .stbd s).outcome := rfl
theorem exec_wait (n : Half) : exec (.wait n) s = (primitive (.wait n.toNat) s).outcome := rfl
theorem exec_pdelay (n : Half) : exec (.pdelay n) s = (primitive (.pdelay n.toNat) s).outcome := rfl
theorem exec_lcmd (cmd : Byte) : exec (.lcmd cmd) s = execLcmd cmd s := rfl
theorem exec_ldat (v : Half) : exec (.ldat v) s = (fastWrite [v] 1 s).outcome := rfl
theorem exec_lpix (v : Half) : exec (.lpix v) s = (fastWrite [v] 1 s).outcome := rfl
theorem exec_lpixr (v : Half) (n : Word) : exec (.lpixr v n) s =
    (fastWrite (List.replicate n.toNat v) 2 s).outcome := rfl
theorem exec_lpixa (vs : List Half) : exec (.lpixa vs) s = (fastWrite vs (2 + vs.length) s).outcome := rfl
theorem exec_lwrd (v : Half) : exec (.lwrd v) s = (fastWrite [v] 1 s).outcome := rfl
theorem exec_lwrda (vs : List Half) : exec (.lwrda vs) s = (fastWrite vs (2 + vs.length) s).outcome := rfl
theorem exec_lrdid : exec .lrdid s =
    (readTransaction .id (waitUop .spin (wIdHi s.cfg)) (waitUop .spin (wIdLo s.cfg)) s).outcome := rfl
theorem exec_lrdfm : exec .lrdfm s =
    (readTransaction .fm (waitUop .polled (wFmHi s.cfg)) (waitUop .polled (wFmLo s.cfg)) s).outcome := rfl
theorem exec_iord : exec .iord s = execIord s := rfl
theorem exec_tcfg (b : Byte) : exec (.tcfg b) s = execTcfg b s := rfl
theorem exec_rota : exec .rota s = execRota s := rfl
theorem exec_sqx (xs : List Half) : exec (.sqx xs) s = execSqx xs s := rfl
theorem exec_bqf (x : Half) : exec (.bqf x) s = execBqf x s := rfl

/-- A fast-path write is the same operation whatever its mnemonic (R100). -/
theorem exec_fastData {i : Instr} {vs : List Half} (h : fastData i = some vs) :
    exec i s = (fastWrite vs i.words s).outcome := by
  cases i <;> simp [fastData] at h <;> subst h <;> rfl

/-- The micro-operation a primitive command is (R120). SAMP, which also responds, and the other commands have `none`. -/
def plainUop : Instr → Option Uop
  | .setdir d => some (.setdir d)
  | .drvl v => some (.drvl v)
  | .drvh v => some (.drvh v)
  | .addr a => some (.addr a)
  | .rda => some .rda
  | .rdd => some .rdd
  | .wra => some .wra
  | .wrd => some .wrd
  | .stba => some .stba
  | .stbd => some .stbd
  | .wait n => some (.wait n.toNat)
  | .pdelay n => some (.pdelay n.toNat)
  | .samp | .lcmd _ | .ldat _ | .lpix _ | .lpixr _ _ | .lpixa _ | .lwrd _ | .lwrda _ | .lrdid | .lrdfm | .iord | .tcfg _
  | .rota | .sqx _ | .bqf _ => none

/-- A primitive command with no response is its micro-operation, issued as a command (R120). -/
theorem exec_plainUop {i : Instr} {u : Uop} (h : plainUop i = some u) : exec i s = (primitive u s).outcome := by
  cases i <;> simp [plainUop] at h <;> subst h <;> rfl

/-- A primitive command with no response, its requirement met (R120, R134). -/
theorem exec_plainUop_ok {i : Instr} {u : Uop} (h : plainUop i = some u) (hc : u.check s = none) :
    exec i s = .next (((u.effect s).setPhase (u.phaseAfter s.phase)).advance 1) := by
  rw [exec_plainUop s h, primitive_ok hc]
  rfl

/-- A primitive command with no response, its requirement not met (R120, R232). -/
theorem exec_plainUop_raised {i : Instr} {u : Uop} {k : FaultKind} (h : plainUop i = some u)
    (hc : u.check s = some k) : exec i s = .next (s.raise k) := by
  rw [exec_plainUop s h, primitive_raised hc]
  rfl

/-- SAMP, its requirements met (R124). -/
theorem exec_samp_ok (hc : Uop.samp.check s = none) : exec .samp s =
    .next (((s.takeSample.setPhase s.phase).advance 1).push (respByte s.sampleByte)) := by
  rw [exec_samp, primitive_ok hc]
  rfl

/-- SAMP, a requirement not met (R124, R232). -/
theorem exec_samp_raised {k : FaultKind} (hc : Uop.samp.check s = some k) : exec .samp s = .next (s.raise k) := by
  rw [exec_samp, primitive_raised hc]
  rfl

/-- Every command answers a next state: a fault is recorded in one too (R232). -/
theorem exec_next (i : Instr) : ∃ t, exec i s = .next t := by
  have h (p : Progress) : ∃ t, p.outcome = .next t := ⟨_, p.outcome_next.choose_spec.1⟩
  cases i <;> first | exact h _ | exact ⟨_, rfl⟩

end

/-! ### Transactions -/

/-- LCMD always completes (R150 step (6), R151): the effects of its micro-operations one after the other. -/
theorem execLcmd_eq (cmd : Byte) (s : State) : execLcmd cmd s =
    .next ((((Uop.addr true).effect (((Uop.drvl (byteValue cmd)).effect
      (((Uop.addr false).effect ((Uop.setdir false).effect ((Uop.drvh 0x0000#16).effect s))).setPhase
        .commandPhase).afterPulse).afterPulse.emit (.lcdWrite false 0x00#8 cmd))).setPhase .dataPhase).advance 1) := by
  have e : writePulse = writePulse ++ [] := by simp
  rw [execLcmd, runUops_cons_ok _ rfl, runUops_cons_ok _ rfl, runUops_cons_ok _ rfl, runUops_nil, Progress.andThen_ok,
    runUops_writePulse, runUops_cons_ok _ rfl, e, runUops_writePulse, runUops_nil, Progress.andThen_ok,
    runUops_cons_ok _ rfl, runUops_nil, Progress.andThen_ok, Progress.outcome_ok]

/-- The state in which IORD samples (R181 steps 1 to 4). -/
def iordSampled (s : State) : State :=
  (Uop.wait Config.wSetup).effect ((Uop.addr false).effect ((Uop.setdir true).effect (Uop.stba.effect s)))

/-- IORD always completes (R180, R181). -/
theorem execIord_eq (s : State) : execIord s =
    .next ((((((Uop.stbd.effect (Uop.samp.effect (iordSampled s))).emit (.ioRead (iordSampled s).sampleByte)).setLastRead
      (respByte (iordSampled s).sampleByte)).setPhase .idle).push (respByte (iordSampled s).sampleByte)).advance 1) := by
  rw [execIord, runUops_cons_ok _ rfl, runUops_cons_ok _ rfl, runUops_cons_ok _ rfl, runUops_cons_ok _ rfl, runUops_nil,
    Progress.andThen_ok, runUops_cons_ok _ rfl, runUops_cons_ok _ rfl, runUops_nil, Progress.andThen_ok,
    Progress.outcome_ok]
  rfl

/-- TCFG with a legal byte always completes (R180, R182). -/
theorem execTcfg_eq {b : Byte} {s : State} (h : legalTouchByte s.cfg b = true) : execTcfg b s =
    .next ((pushLastRead (((((Uop.stbd.effect ((Uop.wait Config.wSetup).effect (Uop.stba.effect
      ((Uop.wait Config.wSetup).effect ((Uop.addr true).effect ((Uop.setdir false).effect
        ((Uop.drvl (byteValue b)).effect s))))))).emit (.ioWrite true b)).setIoReg b).setPhase .idle))).advance 1) := by
  rw [execTcfg, h, State.guardWith, if_pos rfl, Progress.andThen_ok, runUops_cons_ok _ rfl, runUops_cons_ok _ rfl,
    runUops_cons_ok _ rfl, runUops_cons_ok _ rfl, runUops_cons_ok _ rfl, runUops_cons_ok _ rfl, runUops_cons_ok _ rfl,
    runUops_nil, Progress.andThen_ok, Progress.outcome_ok]

/-- TCFG with another byte does nothing but raise (R102). -/
theorem execTcfg_raised {b : Byte} {s : State} (h : legalTouchByte s.cfg b = false) :
    execTcfg b s = .next (s.raise (.illegalTouchConfig b)) := by
  rw [execTcfg, h, State.guardWith, if_neg Bool.false_ne_true, Progress.andThen_raised, Progress.outcome_raised]

/-- The legal TCFG operands (R102). -/
theorem legalTouchByte_iff {p : Params} {b : Byte} : legalTouchByte p b = true ↔ ∃ c, touchByte p c = b := by
  rw [legalTouchByte, List.any_eq_true]
  constructor
  · rintro ⟨c, _, h⟩
    exact ⟨c, by simpa using h⟩
  · rintro ⟨c, h⟩
    exact ⟨c, by cases c <;> decide, by simpa using h⟩

/-! ### Fetch and step -/

/-- What fetch finds where CP is inside the stream (R98). -/
theorem fetch_inside {s : State} (h : s.cp < s.cs.length) : s.fetch =
    match decode (s.cs.drop s.cp) with
    | .ok i _ => .command i
    | .bad e => .illegal (faultOf s.cp e) := by
  have h1 : ¬ s.cp = s.cs.length := by omega
  have h2 : ¬ s.cs.length < s.cp := by omega
  exact (if_neg h1).trans (if_neg h2)

/-- A step that answers a next state has run a command or recorded a decode fault (R11, R232). -/
theorem step_eq_next {s t : State} (h : step s = .next t) :
    s.fault = none ∧ s.cp < s.cs.length ∧
      ((∃ i rest, decode (s.cs.drop s.cp) = .ok i rest ∧ exec i s = .next t) ∨
        ∃ e, decode (s.cs.drop s.cp) = .bad e ∧ t = s.raise (faultOf s.cp e)) := by
  unfold step at h
  cases hf : s.fault with
  | some r => simp [hf] at h
  | none =>
    simp only [hf] at h
    by_cases h1 : s.cp = s.cs.length
    · simp [State.fetch, h1] at h
    by_cases h2 : s.cs.length < s.cp
    · simp [State.fetch, h1, h2] at h
    have hc : s.cp < s.cs.length := by omega
    rw [fetch_inside hc] at h
    refine ⟨rfl, hc, ?_⟩
    cases hd : decode (s.cs.drop s.cp) with
    | ok i rest =>
      simp only [hd] at h
      exact .inl ⟨i, rest, rfl, h⟩
    | bad e =>
      simp only [hd, Host.Outcome.next.injEq] at h
      exact .inr ⟨e, rfl, h.symm⟩

end Sys2Proof.Machine
end

