-- ==== Sys2Proof/Laws/Events.lean ====
section
/-!
SUPPORT. Reading an event list (10_state.md rule R39, 41_lcd_transactions.md rules R161 and R162), and the fields of the
response of TCFG (42_touch_input.md rule R182).
-/
namespace Sys2Proof.Machine

@[simp] theorem addrWrites_nil : addrWrites [] = [] := rfl

@[simp] theorem addrWrites_append (es fs : List Event) : addrWrites (es ++ fs) = addrWrites es ++ addrWrites fs :=
  List.filterMap_append

@[simp] theorem addrWrites_pin_addr (old new : Level) (es : List Event) :
    addrWrites (.pinW .addr old new :: es) = (old, new) :: addrWrites es := rfl

@[simp] theorem addrWrites_pin_dir (old new : Level) (es : List Event) :
    addrWrites (.pinW .dir old new :: es) = addrWrites es := rfl

@[simp] theorem addrWrites_pin_lcdRd (old new : Level) (es : List Event) :
    addrWrites (.pinW .lcdRd old new :: es) = addrWrites es := rfl

@[simp] theorem addrWrites_pin_lcdWr (old new : Level) (es : List Event) :
    addrWrites (.pinW .lcdWr old new :: es) = addrWrites es := rfl

@[simp] theorem addrWrites_pin_ioStb (old new : Level) (es : List Event) :
    addrWrites (.pinW .ioStb old new :: es) = addrWrites es := rfl

@[simp] theorem addrWrites_oe (old new : Level) (es : List Event) :
    addrWrites (.oeW old new :: es) = addrWrites es := rfl

@[simp] theorem addrWrites_latch (old new : Byte) (es : List Event) :
    addrWrites (.latchW old new :: es) = addrWrites es := rfl

@[simp] theorem addrWrites_wait (kind : WaitKind) (n : Nat) (es : List Event) :
    addrWrites (.wait kind n :: es) = addrWrites es := rfl

@[simp] theorem addrWrites_samp (v : Byte) (es : List Event) : addrWrites (.samp v :: es) = addrWrites es := rfl

@[simp] theorem addrWrites_lcdWrite (a : Level) (hi lo : Byte) (es : List Event) :
    addrWrites (.lcdWrite a hi lo :: es) = addrWrites es := rfl

@[simp] theorem addrWrites_lcdRead (profile : Profile) (hi lo : Byte) (es : List Event) :
    addrWrites (.lcdRead profile hi lo :: es) = addrWrites es := rfl

@[simp] theorem addrWrites_pulse (old : Level) : addrWrites (pulseEvents old) = [] := rfl

@[simp] theorem waitTotal_nil : waitTotal [] = 0 := rfl

@[simp] theorem waitTotal_cons (e : Event) (es : List Event) : waitTotal (e :: es) = e.waitCycles + waitTotal es := rfl

@[simp] theorem waitTotal_append (es fs : List Event) : waitTotal (es ++ fs) = waitTotal es + waitTotal fs := by
  induction es with
  | nil => simp
  | cons e es ih => simp [ih, Nat.add_assoc]

@[simp] theorem waitTotal_pulse (old : Level) : waitTotal (pulseEvents old) = 6 := rfl

@[simp] theorem length_pulseEvents (old : Level) : (pulseEvents old).length = 4 := rfl

/-- A command whose parts all keep a transitive relation keeps it, whether or not a check fails. -/
theorem andThen_last_rel (R : State → State → Prop) (htrans : ∀ {a b c}, R a b → R b c → R a c) {s : State}
    {p : Progress} {f : State → Progress} (h : R s p.last) (hf : ∀ t, R t (f t).last) : R s (p.andThen f).last := by
  cases p with
  | ok t => exact htrans h (hf t)
  | raised k t => exact h

/-- TCFG's response appends one word, and may use up one drawn word; nothing else (R182). -/
theorem pushLastRead_eq (s : State) : pushLastRead s =
    { s with
      env := if s.lastValid then s.env else s.env.wordNext,
      resp := s.resp ++ [if s.lastValid then s.lastRead else s.env.wordAnswer] } := by
  cases h : s.lastValid <;> apply State.ext <;> simp [pushLastRead, h]

end Sys2Proof.Machine
end

