-- ==== Sys2Proof/Laws/Agree.lean ====
section
/-!
SUPPORT. Two states that agree in all but the environment's answers (20_memory.md rule R75): the named operations, the
micro-operations and the progress of a command keep them so.
-/
namespace Sys2Proof.Machine

variable {s t : State}

theorem AgreeButAnswers.refl (s : State) : AgreeButAnswers s s :=
  ⟨rfl, rfl, rfl, rfl, rfl, rfl, rfl, rfl, rfl, rfl, rfl, rfl, rfl⟩

section
variable (h : AgreeButAnswers s t)
include h

theorem AgreeButAnswers.busOe : t.busOe = s.busOe := congrArg BusFacing.busOe h.bus

theorem AgreeButAnswers.outLatch : t.outLatch = s.outLatch := congrArg BusFacing.outLatch h.bus

theorem AgreeButAnswers.emit (e f : Event) : AgreeButAnswers (s.emit e) (t.emit f) :=
  ⟨h.cs, h.cfg, h.bus, h.busMask, h.ioReg, h.lastValid, h.phase, h.biq, h.cp, h.resp, by simp [h.ev], h.settle,
    h.fault⟩

theorem AgreeButAnswers.writePin (p : OutPin) (b : Level) : AgreeButAnswers (s.writePin p b) (t.writePin p b) := by
  have hb := h.bus
  simp only [busFacing, BusFacing.mk.injEq] at hb
  refine ⟨h.cs, h.cfg, ?_, h.busMask, h.ioReg, h.lastValid, h.phase, h.biq, h.cp, h.resp, by simp [h.ev], h.settle,
    h.fault⟩
  cases p <;> simp [busFacing, hb]

theorem AgreeButAnswers.writeOe (b : Level) : AgreeButAnswers (s.writeOe b) (t.writeOe b) := by
  have hb := h.bus
  simp only [busFacing, BusFacing.mk.injEq] at hb
  exact ⟨h.cs, h.cfg, by simp [busFacing, hb], h.busMask, h.ioReg, h.lastValid, h.phase, h.biq, h.cp, h.resp,
    by simp [h.ev], h.settle, h.fault⟩

theorem AgreeButAnswers.mpinWrite (w : Word) : AgreeButAnswers (s.mpinWrite w) (t.mpinWrite w) := by
  have hb := h.bus
  simp only [busFacing, BusFacing.mk.injEq] at hb
  exact ⟨h.cs, h.cfg, by simp [busFacing, hb, h.busMask], h.busMask, h.ioReg, h.lastValid, h.phase, h.biq, h.cp, h.resp,
    by simp [h.ev], h.settle, h.fault⟩

theorem AgreeButAnswers.takeSample : AgreeButAnswers s.takeSample t.takeSample :=
  ⟨h.cs, h.cfg, h.bus, h.busMask, h.ioReg, h.lastValid, h.phase, h.biq, h.cp, h.resp, by simp [h.ev], h.settle,
    h.fault⟩

theorem AgreeButAnswers.takeRotA : AgreeButAnswers s.takeRotA t.takeRotA :=
  ⟨h.cs, h.cfg, h.bus, h.busMask, h.ioReg, h.lastValid, h.phase, h.biq, h.cp, h.resp, by simp [h.ev], h.settle,
    h.fault⟩

theorem AgreeButAnswers.setSettle (x : Settle) : AgreeButAnswers (s.setSettle x) (t.setSettle x) :=
  ⟨h.cs, h.cfg, h.bus, h.busMask, h.ioReg, h.lastValid, h.phase, h.biq, h.cp, h.resp, h.ev, rfl, h.fault⟩

theorem AgreeButAnswers.setPhase (p : Phase) : AgreeButAnswers (s.setPhase p) (t.setPhase p) :=
  ⟨h.cs, h.cfg, h.bus, h.busMask, h.ioReg, h.lastValid, rfl, h.biq, h.cp, h.resp, h.ev, h.settle, h.fault⟩

theorem AgreeButAnswers.push (v w : Word) : AgreeButAnswers (s.push v) (t.push w) :=
  ⟨h.cs, h.cfg, h.bus, h.busMask, h.ioReg, h.lastValid, h.phase, h.biq, h.cp, by simp [h.resp], h.ev, h.settle,
    h.fault⟩

theorem AgreeButAnswers.advance (n : Nat) : AgreeButAnswers (s.advance n) (t.advance n) :=
  ⟨h.cs, h.cfg, h.bus, h.busMask, h.ioReg, h.lastValid, h.phase, h.biq, by simp [h.cp], h.resp, h.ev, h.settle, h.fault⟩

theorem AgreeButAnswers.setIoReg (b : Byte) : AgreeButAnswers (s.setIoReg b) (t.setIoReg b) :=
  ⟨h.cs, h.cfg, h.bus, h.busMask, rfl, h.lastValid, h.phase, h.biq, h.cp, h.resp, h.ev, h.settle, h.fault⟩

theorem AgreeButAnswers.setLastRead (v w : Word) : AgreeButAnswers (s.setLastRead v) (t.setLastRead w) :=
  ⟨h.cs, h.cfg, h.bus, h.busMask, h.ioReg, rfl, h.phase, h.biq, h.cp, h.resp, h.ev, h.settle, h.fault⟩

theorem AgreeButAnswers.setBiquad (b : Biquad) : AgreeButAnswers (s.setBiquad b) (t.setBiquad b) :=
  ⟨h.cs, h.cfg, h.bus, h.busMask, h.ioReg, h.lastValid, h.phase, rfl, h.cp, h.resp, h.ev, h.settle, h.fault⟩

theorem AgreeButAnswers.raise (k : FaultKind) : AgreeButAnswers (s.raise k) (t.raise k) :=
  ⟨h.cs, h.cfg, h.bus, h.busMask, h.ioReg, h.lastValid, h.phase, h.biq, h.cp, h.resp, h.ev, h.settle,
    by simp [h.fault, h.cp]⟩

theorem AgreeButAnswers.pushLastRead : AgreeButAnswers (pushLastRead s) (pushLastRead t) := by
  rw [pushLastRead_eq, pushLastRead_eq]
  exact ⟨h.cs, h.cfg, h.bus, h.busMask, h.ioReg, h.lastValid, h.phase, h.biq, h.cp, by simp [h.resp], h.ev, h.settle,
    h.fault⟩

/-- The requirement of a micro-operation never rests on an answer (R120, R265). -/
theorem Uop.check_agree (u : Uop) : u.check t = u.check s := by
  cases u <;> simp [Uop.check, State.settleCheck, h.busOe, h.settle]

/-- The effect of a micro-operation keeps the agreement (R120). -/
theorem Uop.effect_agree (u : Uop) : AgreeButAnswers (u.effect s) (u.effect t) := by
  cases u with
  | setdir d =>
    cases d
    · exact ((h.writePin .dir false).writeOe true).setSettle _
    · exact ((h.writeOe false).writePin .dir true).setSettle _
  | drvl v => exact (h.mpinWrite _).setSettle _
  | drvh v => exact (h.mpinWrite _).setSettle _
  | samp => exact h.takeSample
  | addr a => exact (h.writePin .addr a).setSettle _
  | rda => exact (h.writePin .lcdRd false).setSettle _
  | rdd => exact (h.writePin .lcdRd true).setSettle _
  | wra => exact (h.writePin .lcdWr false).setSettle _
  | wrd => exact (h.writePin .lcdWr true).setSettle _
  | stba => exact (h.writePin .ioStb false).setSettle _
  | stbd => exact (h.writePin .ioStb true).setSettle _
  | wait n => rw [Uop.effect_wait, Uop.effect_wait, h.settle]; exact (h.emit _ _).setSettle _
  | pdelay n => rw [Uop.effect_pdelay, Uop.effect_pdelay, h.settle]; exact (h.emit _ _).setSettle _

end

/-- Two commands have come equally far: both go on from states that agree, or the same check has failed in both. -/
def Progress.Agree : Progress → Progress → Prop
  | .ok s, q => ∃ t, q = .ok t ∧ AgreeButAnswers s t
  | .raised k s, q => ∃ t, q = .raised k t ∧ AgreeButAnswers s t

theorem Progress.agree_ok (h : AgreeButAnswers s t) : (Progress.ok s).Agree (.ok t) := ⟨t, rfl, h⟩

theorem Progress.Agree.andThen {p q : Progress} {f g : State → Progress} (h : p.Agree q)
    (hf : ∀ a b, AgreeButAnswers a b → (f a).Agree (g b)) : (p.andThen f).Agree (q.andThen g) := by
  cases p with
  | ok s =>
    obtain ⟨t, rfl, ht⟩ := h
    exact hf s t ht
  | raised k s =>
    obtain ⟨t, rfl, ht⟩ := h
    exact ⟨t, rfl, ht⟩

/-- Equal progress is an equal outcome: next states that agree (R232). -/
theorem Progress.Agree.outcome {p q : Progress} (h : p.Agree q) :
    ∃ a b, p.outcome = .next a ∧ q.outcome = .next b ∧ AgreeButAnswers a b := by
  cases p with
  | ok s =>
    obtain ⟨t, rfl, ht⟩ := h
    exact ⟨s, t, rfl, rfl, ht⟩
  | raised k s =>
    obtain ⟨t, rfl, ht⟩ := h
    exact ⟨s.raise k, t.raise k, rfl, rfl, ht.raise k⟩

/-- A check that finds the same in both states (R98). -/
theorem guardWith_agree (h : AgreeButAnswers s t) (c : Bool) (k : FaultKind) :
    (s.guardWith c k).Agree (t.guardWith c k) := by
  cases c
  · exact ⟨t, rfl, h⟩
  · exact ⟨t, rfl, h⟩

/-- A sequence of micro-operations comes equally far from states that agree (R150). -/
theorem runUops_agree (us : List Uop) (h : AgreeButAnswers s t) : (runUops us s).Agree (runUops us t) := by
  induction us generalizing s t with
  | nil => exact ⟨t, rfl, h⟩
  | cons u us ih =>
    cases hc : u.check s with
    | none =>
      rw [runUops_cons_ok us hc, runUops_cons_ok us ((Uop.check_agree h u).trans hc)]
      exact ih (Uop.effect_agree h u)
    | some k =>
      rw [runUops_cons_raised us hc, runUops_cons_raised us ((Uop.check_agree h u).trans hc)]
      exact ⟨t, rfl, h⟩

end Sys2Proof.Machine
end

