-- ==== Sys2Proof/Laws/Decode.lean ====
section
/-!
SUPPORT. The fields of a head word and the elements of a list of words, said once for decoding and encoding
(30_encoding.md rules R90 to R97).
-/
namespace Sys2Proof

/-- The bits of a head word (R90). -/
theorem getLsbD_packHead (op aux : Byte) (imm : Half) (k : Nat) : (packHead op aux imm).getLsbD k =
    if k < 16 then imm.getLsbD k else if k < 24 then aux.getLsbD (k - 16) else op.getLsbD (k - 24) := by
  have e : (packHead op aux imm).getLsbD k = BitVec.getLsbD (w := 8 + (8 + 16)) (op ++ (aux ++ imm)) k := rfl
  rw [e, BitVec.getLsbD_append, BitVec.getLsbD_append]
  by_cases h1 : k < 16
  · have h2 : k < 8 + 16 := by omega
    simp [h1, h2]
  · by_cases h2 : k < 24
    · simp [h1, h2]
    · simp [h1, h2]

@[simp] theorem opField_packHead (op aux : Byte) (imm : Half) : opField (packHead op aux imm) = op := by
  apply BitVec.eq_of_getLsbD_eq
  intro k hk
  have h1 : ¬ 24 + k < 16 := by omega
  have h2 : ¬ 24 + k < 24 := by omega
  have h3 : 24 + k - 24 = k := by omega
  rw [opField, BitVec.getLsbD_extractLsb', getLsbD_packHead, if_neg h1, if_neg h2, h3]
  simp [hk]

@[simp] theorem auxField_packHead (op aux : Byte) (imm : Half) : auxField (packHead op aux imm) = aux := by
  apply BitVec.eq_of_getLsbD_eq
  intro k hk
  have h1 : ¬ 16 + k < 16 := by omega
  have h2 : 16 + k < 24 := by omega
  have h3 : 16 + k - 16 = k := by omega
  rw [auxField, BitVec.getLsbD_extractLsb', getLsbD_packHead, if_neg h1, if_pos h2, h3]
  simp [hk]

@[simp] theorem immField_packHead (op aux : Byte) (imm : Half) : immField (packHead op aux imm) = imm := by
  apply BitVec.eq_of_getLsbD_eq
  intro k hk
  have h1 : 0 + k < 16 := by omega
  rw [immField, BitVec.getLsbD_extractLsb', getLsbD_packHead, if_pos h1, Nat.zero_add]
  simp [hk]

/-- A word is its three fields. -/
theorem packHead_fields (w : Word) : packHead (opField w) (auxField w) (immField w) = w := by
  apply BitVec.eq_of_getLsbD_eq
  intro k hk
  rw [getLsbD_packHead, opField, auxField, immField]
  simp only [BitVec.getLsbD_extractLsb', Nat.zero_add]
  by_cases h1 : k < 16
  · rw [if_pos h1, decide_eq_true h1, Bool.true_and]
  · by_cases h2 : k < 24
    · have h3 : k - 16 < 8 := by omega
      have h4 : 16 + (k - 16) = k := by omega
      rw [if_neg h1, if_pos h2, decide_eq_true h3, Bool.true_and, h4]
    · have h3 : k - 24 < 8 := by omega
      have h4 : 24 + (k - 24) = k := by omega
      rw [if_neg h1, if_neg h2, decide_eq_true h3, Bool.true_and, h4]

theorem packHead_inj (a b m n : Byte) (c o : Half) : packHead a b c = packHead m n o ↔ a = m ∧ b = n ∧ c = o := by
  constructor
  · intro h
    exact ⟨by simpa using congrArg opField h, by simpa using congrArg auxField h, by simpa using congrArg immField h⟩
  · rintro ⟨rfl, rfl, rfl⟩
    rfl

/-- A mask acts on each field of a head word (R95). -/
theorem packHead_and (a b m n : Byte) (c o : Half) :
    packHead a b c &&& packHead m n o = packHead (a &&& m) (b &&& n) (c &&& o) := by
  apply BitVec.eq_of_getLsbD_eq
  intro k hk
  rw [BitVec.getLsbD_and, getLsbD_packHead, getLsbD_packHead, getLsbD_packHead]
  split
  · simp
  · split <;> simp

@[simp] theorem bitImm_upper (b : Level) : (bitImm b).extractLsb' 1 15 = 0#15 := by cases b <;> decide

@[simp] theorem bitImm_bit (b : Level) : (bitImm b)[0] = b := by cases b <;> decide

@[simp] theorem byteImm_upper (b : Byte) : (byteImm b).extractLsb' 8 8 = 0#8 := by
  apply BitVec.eq_of_getLsbD_eq
  intro k hk
  simp [byteImm]

@[simp] theorem byteImm_lower (b : Byte) : (byteImm b).extractLsb' 0 8 = b := by
  apply BitVec.eq_of_getLsbD_eq
  intro k hk
  have h1 : k < 16 := by omega
  simp [byteImm, hk, h1]

@[simp] theorem immField_elementWord (e : Half) : immField (elementWord e) = e := by
  apply BitVec.eq_of_getLsbD_eq
  intro k hk
  have h1 : k < 32 := by omega
  simp [immField, elementWord, hk, h1]

@[simp] theorem upperField_elementWord (e : Half) : upperField (elementWord e) = 0#16 := by
  apply BitVec.eq_of_getLsbD_eq
  intro k hk
  simp [upperField, elementWord]

/-- An element word whose upper half is 0 is the word of its lower half (R66). -/
theorem elementWord_immField {w : Word} (h : upperField w = 0#16) : elementWord (immField w) = w := by
  apply BitVec.eq_of_getLsbD_eq
  intro k hk
  by_cases h1 : k < 16
  · simp [elementWord, immField, h1, hk]
  · have h2 := congrArg (fun v => v.getLsbD (k - 16)) h
    have h3 : k - 16 < 16 := by omega
    have h4 : 16 + (k - 16) = k := by omega
    simp only [upperField, BitVec.getLsbD_extractLsb', h3, decide_true, Bool.true_and, h4, BitVec.getLsbD_zero] at h2
    rw [h2]
    simp [elementWord, immField, h1]

/-- Reading back the element words of a list gives the list. -/
theorem takeElements_encoded (es : List Half) (before : Nat) (rest : List Word) :
    takeElements es.length before (es.map elementWord ++ rest) = .ok es rest := by
  have h1 : ¬ (es.map elementWord ++ rest).length < es.length := by simp
  have h2 : (es.map elementWord ++ rest).take es.length = es.map elementWord := by
    rw [← List.length_map (f := elementWord) (as := es), List.take_left]
  have h3 : (es.map elementWord ++ rest).drop es.length = rest := by
    rw [← List.length_map (f := elementWord) (as := es), List.drop_left]
  have h4 : (es.map elementWord).find? (fun w => upperField w != 0#16) = none := by
    rw [List.find?_eq_none]
    intro w hw
    obtain ⟨e, _, rfl⟩ := List.mem_map.1 hw
    simp
  have h5 : (es.map elementWord).map immField = es := by
    have hf : immField ∘ elementWord = id := funext fun e => immField_elementWord e
    rw [List.map_map, hf, List.map_id]
  simp only [takeElements, h1, if_false, h2, h4, h3, h5]

/-- What a successful read of elements has found. -/
theorem takeElements_eq_ok {n before : Nat} {ws rest : List Word} {es : List Half}
    (h : takeElements n before ws = .ok es rest) :
    es.length = n ∧ es.map elementWord ++ rest = ws := by
  unfold takeElements at h
  split at h
  · cases h
  · split at h
    · cases h
    · rename_i hlen hnone
      rw [List.find?_eq_none] at hnone
      simp only [Elements.ok.injEq] at h
      obtain ⟨rfl, rfl⟩ := h
      refine ⟨by simp; omega, ?_⟩
      have : ((ws.take n).map immField).map elementWord = ws.take n := by
        rw [List.map_map]
        refine (List.map_congr_left fun w hw => ?_).trans (List.map_id _)
        have hz : upperField w = 0#16 := by simpa using hnone w hw
        exact elementWord_immField hz
      rw [this, List.take_append_drop]

end Sys2Proof
end

