-- ==== Sys2Proof/Laws/PerInstr.lean ====
section
/-!
SUPPORT. Statements for all instructions, one lemma per constructor: an encoding is as long as rule R97 says.
-/
namespace Sys2Proof.Laws.EncodedLength

/-- The words of a command are as many as its length (30_encoding.md rule R97). -/
def Statement (i : Instr) : Prop := (encode i).length = i.words

theorem setdir (d : Level) : Statement (.setdir d) := rfl
theorem drvl (v : Half) : Statement (.drvl v) := rfl
theorem drvh (v : Half) : Statement (.drvh v) := rfl
theorem samp : Statement .samp := rfl
theorem addr (a : Level) : Statement (.addr a) := rfl
theorem rda : Statement .rda := rfl
theorem rdd : Statement .rdd := rfl
theorem wra : Statement .wra := rfl
theorem wrd : Statement .wrd := rfl
theorem stba : Statement .stba := rfl
theorem stbd : Statement .stbd := rfl
theorem wait (n : Half) : Statement (.wait n) := rfl
theorem pdelay (n : Half) : Statement (.pdelay n) := rfl
theorem lcmd (c : Byte) : Statement (.lcmd c) := rfl
theorem ldat (v : Half) : Statement (.ldat v) := rfl
theorem lpix (v : Half) : Statement (.lpix v) := rfl
theorem lpixr (v : Half) (n : Word) : Statement (.lpixr v n) := rfl
theorem lpixa (es : List Half) : Statement (.lpixa es) := by
  simp [Statement, encode, Instr.words]; omega
theorem lwrd (v : Half) : Statement (.lwrd v) := rfl
theorem lwrda (es : List Half) : Statement (.lwrda es) := by
  simp [Statement, encode, Instr.words]; omega
theorem lrdid : Statement .lrdid := rfl
theorem lrdfm : Statement .lrdfm := rfl
theorem iord : Statement .iord := rfl
theorem tcfg (c : Byte) : Statement (.tcfg c) := rfl
theorem rota : Statement .rota := rfl
theorem sqx (xs : List Half) : Statement (.sqx xs) := by
  simp [Statement, encode, Instr.words]; omega
theorem bqf (x : Half) : Statement (.bqf x) := rfl

end Sys2Proof.Laws.EncodedLength
end

