-- ==== Sys2Proof/Tests/Slice0.lean ====
section
/-!
SUPPORT. The model's own tests: ill-formed terms refused, words written out from 30_encoding.md decoded, single steps
against 95_test_vectors.md, and for each statement with hypotheses a state and operands that meet them.
-/
namespace Sys2Proof.Tests
open Sys2Proof.Machine

/-! ### Helpers -/

/-- The next state, if there is one. -/
def next? (o : Host.Outcome State Fault Refusal) : Option State :=
  match o with
  | .next t => some t
  | .fault _ => none
  | .refused _ => none

/-- The reset state with a command stream and the environment's answers. -/
def start (cs : List Word) (bus : List Byte) (rot : List Level) : State :=
  { State.reset with cs := cs, env := { State.reset.env with busIn := bus, rotIn := rot } }

/-- The state of vector B2.4: in DataPhase after `lcmd 0x2C`. -/
def inData (cs : List Word) (bus : List Byte) : State :=
  { start cs bus [] with
    pins := { State.reset.pins with dir := false, addr := true }, busOe := true, outLatch := 0x2C#8,
    phase := .dataPhase, settle := .cycles 0 }

/-- A state with a settle count. -/
def settled (s : State) (n : Nat) : State := { s with settle := .cycles n }

/-! ### Well-formedness: each check refuses an ill-formed term -/

/-- R93: 33 samples are too many, 32 are not. -/
theorem test_wf_sqx : (Instr.sqx (List.replicate 33 0#16)).wellFormed = false ∧
    (Instr.sqx (List.replicate 32 0#16)).wellFormed = true := by decide

/-- R92: an array that its count word cannot count. -/
theorem test_wf_lpixa : (Instr.lpixa (List.replicate (2 ^ 32) 0#16)).wellFormed = false ∧
    (Instr.lpixa [0#16]).wellFormed = true := by
  simp only [Instr.wellFormed, List.length_replicate]
  decide

/-- R92: the same of LWRDA. -/
theorem test_wf_lwrda : (Instr.lwrda (List.replicate (2 ^ 32) 0#16)).wellFormed = false ∧
    (Instr.lwrda [0#16]).wellFormed = true := by
  simp only [Instr.wellFormed, List.length_replicate]
  decide

/-! ### Decoding: one word for each row, from the patterns of R95 -/

theorem test_decode_setdir : decode [0x01000001#32] = .ok (.setdir true) [] := by decide
theorem test_decode_drvl : decode [0x0200AB2C#32] = .ok (.drvl 0xAB2C#16) [] := by decide
theorem test_decode_drvh : decode [0x0300AB2C#32] = .ok (.drvh 0xAB2C#16) [] := by decide
theorem test_decode_samp : decode [0x04000000#32] = .ok .samp [] := by decide
theorem test_decode_addr : decode [0x05000001#32] = .ok (.addr true) [] := by decide
theorem test_decode_rda : decode [0x06000000#32] = .ok .rda [] := by decide
theorem test_decode_rdd : decode [0x07000000#32] = .ok .rdd [] := by decide
theorem test_decode_wra : decode [0x08000000#32] = .ok .wra [] := by decide
theorem test_decode_wrd : decode [0x09000000#32] = .ok .wrd [] := by decide
theorem test_decode_stba : decode [0x0A000000#32] = .ok .stba [] := by decide
theorem test_decode_stbd : decode [0x0B000000#32] = .ok .stbd [] := by decide
theorem test_decode_wait : decode [0x0C00FFFF#32] = .ok (.wait 0xFFFF#16) [] := by decide
theorem test_decode_pdelay : decode [0x0D000047#32] = .ok (.pdelay 71#16) [] := by decide
theorem test_decode_lcmd : decode [0x1000002C#32] = .ok (.lcmd 0x2C#8) [] := by decide
theorem test_decode_ldat : decode [0x1100F800#32] = .ok (.ldat 0xF800#16) [] := by decide
theorem test_decode_lpix : decode [0x120007E0#32] = .ok (.lpix 0x07E0#16) [] := by decide
theorem test_decode_lpixr : decode [0x1300F800#32, 0x00000003#32] = .ok (.lpixr 0xF800#16 3#32) [] := by decide
theorem test_decode_lpixa : decode [0x14000000#32, 0x00000002#32, 0x00000001#32, 0x00000002#32] =
    .ok (.lpixa [0x0001#16, 0x0002#16]) [] := by decide
theorem test_decode_lwrd : decode [0x15001234#32] = .ok (.lwrd 0x1234#16) [] := by decide
theorem test_decode_lwrda : decode [0x16000000#32, 0x00000002#32, 0x00001234#32, 0x00005678#32] =
    .ok (.lwrda [0x1234#16, 0x5678#16]) [] := by decide
theorem test_decode_lrdid : decode [0x17000000#32] = .ok .lrdid [] := by decide
theorem test_decode_lrdfm : decode [0x18000000#32] = .ok .lrdfm [] := by decide
theorem test_decode_iord : decode [0x20000000#32] = .ok .iord [] := by decide
theorem test_decode_tcfg : decode [0x210000CB#32] = .ok (.tcfg 0xCB#8) [] := by decide
theorem test_decode_rota : decode [0x22000000#32] = .ok .rota [] := by decide
theorem test_decode_sqx : decode [0x30030000#32, 0x00002EE0#32, 0x0000D120#32, 0x00002EE0#32] =
    .ok (.sqx [0x2EE0#16, 0xD120#16, 0x2EE0#16]) [] := by decide
theorem test_decode_bqf : decode [0x3100FC18#32] = .ok (.bqf 0xFC18#16) [] := by decide

/-- Vectors B1.3, B1.10, B2.3, B3.9, B4.8: reserved bits and `aux`. -/
theorem test_decode_reserved :
    decode [0x01000002#32] = .bad (.illegalCommand 0x01000002#32) ∧
    decode [0x01010000#32] = .bad (.illegalCommand 0x01010000#32) ∧
    decode [0x04000001#32] = .bad (.illegalCommand 0x04000001#32) ∧
    decode [0x1000012C#32] = .bad (.illegalCommand 0x1000012C#32) ∧
    decode [0x22000001#32] = .bad (.illegalCommand 0x22000001#32) ∧
    decode [0x31010000#32] = .bad (.illegalCommand 0x31010000#32) ∧
    decode [0x30200001#32] = .bad (.illegalCommand 0x30200001#32) := by decide

/-- Vector B5.1: undefined opcodes. -/
theorem test_decode_undefined :
    decode [0x00000000#32] = .bad (.illegalCommand 0x00000000#32) ∧
    decode [0x0E000000#32] = .bad (.illegalCommand 0x0E000000#32) ∧
    decode [0x0F000000#32] = .bad (.illegalCommand 0x0F000000#32) ∧
    decode [0x19000000#32] = .bad (.illegalCommand 0x19000000#32) ∧
    decode [0x1F000000#32] = .bad (.illegalCommand 0x1F000000#32) ∧
    decode [0x23000000#32] = .bad (.illegalCommand 0x23000000#32) ∧
    decode [0x2F000000#32] = .bad (.illegalCommand 0x2F000000#32) ∧
    decode [0x32000000#32] = .bad (.illegalCommand 0x32000000#32) ∧
    decode [0xFF000000#32] = .bad (.illegalCommand 0xFF000000#32) := by decide

/-- Vector B5.2: `aux` set. -/
theorem test_decode_aux :
    decode [0x11010000#32] = .bad (.illegalCommand 0x11010000#32) ∧
    decode [0x0C010003#32] = .bad (.illegalCommand 0x0C010003#32) ∧
    decode [0x20FF0000#32] = .bad (.illegalCommand 0x20FF0000#32) := by decide

/-- Vectors B2.13, B5.4: truncation comes before everything but the head word; B4.20: the length before truncation. -/
theorem test_decode_order :
    decode [0x14000000#32, 0xFFFFFFFF#32, 0x00000001#32] = .bad (.truncated 3) ∧
    decode [0x30210000#32] = .bad (.lengthMismatch 33) ∧
    decode [0x30210001#32] = .bad (.illegalCommand 0x30210001#32) ∧
    decode [0x30020000#32, 0x00010000#32, 0x00000000#32] = .bad (.illegalCommand 0x00010000#32) := by decide

/-! ### Single steps from 95_test_vectors.md -/

/-- B1.1. -/
theorem test_setdir_write : (next? (step (start [0x01000000#32] [] []))).map (fun t => (t.pins.dir, t.busOe, t.ev)) =
    some (false, true, [.pinW .dir true false, .oeW false true]) := by decide

/-- B1.2: the enable goes off before the pin turns. -/
theorem test_setdir_read : (next? (step (inData [0x01000001#32] []))).map (fun t => (t.phase, t.ev)) =
    some (.idle, [.oeW true false, .pinW .dir false true]) := by decide

/-- B1.4. -/
theorem test_drvl : (next? (step (start [0x0200AB2C#32] [] []))).map (fun t => (t.outLatch, t.ev, t.settle)) =
    some (0x2C#8, [.latchW 0x00#8 0x2C#8], .cycles 0) := by decide

/-- B1.5. -/
theorem test_drvh : (next? (step (start [0x0300AB2C#32] [] []))).map (fun t => (t.outLatch, t.ev)) =
    some (0xAB#8, [.latchW 0x00#8 0xAB#8]) := by decide

/-- B1.7. -/
theorem test_samp : (next? (step (start [0x04000000#32] [0x5A#8] []))).map (fun t => (t.resp, t.ev, t.settle)) =
    some ([0x0000005A#32], [.samp 0x5A#8], .inf) := by decide

/-- B1.9: the direction is checked before the settle requirement. -/
theorem test_samp_driving : (next? (step (inData [0x04000000#32] []))).map (fun t => t.fault) =
    some (some ⟨.sampleWhileDriving, 0⟩) := by decide

/-- B1.11. -/
theorem test_addr : (next? (step (start [0x05000001#32] [] []))).map (fun t => (t.pins.addr, t.ev)) =
    some (true, [.pinW .addr false true]) := by decide

/-- B1.12. -/
theorem test_rda : (next? (step (start [0x06000000#32] [] []))).map (fun t => (t.pins.lcdRd, t.ev)) =
    some (false, [.pinW .lcdRd true false]) := by decide

/-- B1.12: RDD needs no wait. -/
theorem test_rdd : (next? (step (settled (start [0x07000000#32] [] []) 0))).map (fun t => (t.pins.lcdRd, t.fault)) =
    some (true, none) := by decide

/-- B1.16: three wait cycles are enough for WRA. -/
theorem test_wra : (next? (step (settled (start [0x08000000#32] [] []) 3))).map (fun t => (t.ev, t.settle)) =
    some ([.pinW .lcdWr true false], .cycles 0) := by decide

/-- B1.17: two are not enough for WRD. -/
theorem test_wrd_short : (next? (step (settled (start [0x09000000#32] [] []) 2))).map (fun t => (t.fault, t.cp)) =
    some (some ⟨.settleViolation (.cycles 2), 0⟩, 0) := by decide

/-- B1.14. -/
theorem test_stba : (next? (step (start [0x0A000000#32] [] []))).map (fun t => (t.pins.ioStb, t.ev)) =
    some (false, [.pinW .ioStb true false]) := by decide

/-- B1.14: from reset STBD is accepted and changes no level. -/
theorem test_stbd : (next? (step (start [0x0B000000#32] [] []))).map (fun t => (t.ev, t.fault)) =
    some ([.pinW .ioStb true true], none) := by decide

/-- B1.15. -/
theorem test_wait : (next? (step (settled (start [0x0C000000#32] [] []) 2))).map (fun t => (t.ev, t.settle)) =
    some ([.wait .spin 0], .cycles 2) := by decide

/-- B1.15, B1.16. -/
theorem test_pdelay : (next? (step (settled (start [0x0D000047#32] [] []) 1))).map (fun t => (t.ev, t.settle)) =
    some ([.wait .polled 71], .cycles 72) := by decide

/-- B2.1, C1 events 1 to 15. -/
theorem test_lcmd : (next? (step (start [0x1000002C#32] [] []))).map (fun t => (t.ev, t.outLatch, t.phase)) =
    some ([.latchW 0x00#8 0x00#8, .pinW .dir true false, .oeW false true, .pinW .addr false false, .wait .spin 3,
      .pinW .lcdWr true false, .wait .spin 3, .pinW .lcdWr false true, .latchW 0x00#8 0x2C#8, .wait .spin 3,
      .pinW .lcdWr true false, .wait .spin 3, .pinW .lcdWr false true, .lcdWrite false 0x00#8 0x2C#8,
      .pinW .addr false true], 0x2C#8, .dataPhase) := by decide

/-- B2.4. -/
theorem test_ldat : (next? (step (inData [0x1100F800#32] []))).map (fun t => (t.ev, t.outLatch, t.phase)) =
    some ([.latchW 0x2C#8 0xF8#8, .wait .spin 3, .pinW .lcdWr true false, .wait .spin 3, .pinW .lcdWr false true,
      .latchW 0xF8#8 0x00#8, .wait .spin 3, .pinW .lcdWr true false, .wait .spin 3, .pinW .lcdWr false true,
      .lcdWrite true 0xF8#8 0x00#8], 0x00#8, .dataPhase) := by decide

/-- B2.6. -/
theorem test_ldat_idle : (next? (step (start [0x11000000#32] [] []))).map (fun t => (t.fault, t.ev)) =
    some (some ⟨.phaseViolation .idle, 0⟩, []) := by decide

/-- B2.7. -/
theorem test_lpix : (next? (step (inData [0x120007E0#32] []))).map (fun t => t.ev.filter Event.isAbstract) =
    some [.lcdWrite true 0x07#8 0xE0#8] := by decide

/-- B2.8. -/
theorem test_lpixr : (next? (step (inData [0x1300F800#32, 3#32] []))).map
    (fun t => (t.ev.length, t.ev.filter Event.isAbstract, t.cp)) =
    some (33, List.replicate 3 (.lcdWrite true 0xF8#8 0x00#8), 2) := by decide

/-- B2.9: a count of 0 needs no phase. -/
theorem test_lpixr_zero : (next? (step (start [0x13001234#32, 0#32] [] []))).map (fun t => (t.ev, t.fault, t.cp)) =
    some ([], none, 2) := by decide

/-- B2.11. -/
theorem test_lpixa : (next? (step (inData [0x14000000#32, 2#32, 1#32, 2#32] []))).map
    (fun t => (t.ev.filter Event.isAbstract, t.cp)) =
    some ([.lcdWrite true 0x00#8 0x01#8, .lcdWrite true 0x00#8 0x02#8], 4) := by decide

/-- B2.12: the element check comes before the phase check. -/
theorem test_lpixa_bad : (next? (step (start [0x14000000#32, 2#32, 1#32, 0x00010002#32] [] []))).map
    (fun t => t.fault) = some (some ⟨.illegalCommand 0x00010002#32, 0⟩) := by decide

/-- B2.7. -/
theorem test_lwrd : (next? (step (inData [0x15001234#32] []))).map (fun t => t.ev.filter Event.isAbstract) =
    some [.lcdWrite true 0x12#8 0x34#8] := by decide

/-- B2.11. -/
theorem test_lwrda : (next? (step (inData [0x16000000#32, 2#32, 0x1234#32, 0x5678#32] []))).map
    (fun t => (t.ev.filter Event.isAbstract, t.outLatch)) =
    some ([.lcdWrite true 0x12#8 0x34#8, .lcdWrite true 0x56#8 0x78#8], 0x78#8) := by decide

/-- B2.14, C1 events 49 to 57 (P_LCD_RD at 1). -/
theorem test_lrdid : (next? (step (inData [0x17000000#32] [0x93#8, 0x41#8]))).map
    (fun t => (t.resp, t.ev, t.phase, t.settle)) =
    some ([0x00009341#32], [.oeW true false, .pinW .dir false true, .pinW .lcdRd true false, .wait .spin 4,
      .samp 0x93#8, .pinW .lcdRd false true, .wait .spin 6, .samp 0x41#8, .lcdRead .id 0x93#8 0x41#8],
      .readPhase, .cycles 6) := by decide

/-- B2.17. -/
theorem test_lrdid_idle : (next? (step (start [0x17000000#32] [] []))).map (fun t => t.fault) =
    some (some ⟨.phaseViolation .idle, 0⟩) := by decide

/-- B2.16, C4 events 16 to 24. -/
theorem test_lrdfm : (next? (step (inData [0x18000000#32] [0xF8#8, 0x00#8]))).map
    (fun t => (t.resp, t.ev, t.settle)) =
    some ([0x0000F800#32], [.oeW true false, .pinW .dir false true, .pinW .lcdRd true false, .wait .polled 71,
      .samp 0xF8#8, .pinW .lcdRd false true, .wait .polled 18, .samp 0x00#8, .lcdRead .fm 0xF8#8 0x00#8],
      .cycles 18) := by decide

/-- B3.1. -/
theorem test_iord : (next? (step (start [0x20000000#32] [0x1F#8] []))).map
    (fun t => (t.resp, t.ev, t.lastRead, t.lastValid)) =
    some ([0x0000001F#32], [.pinW .ioStb true false, .oeW false false, .pinW .dir true true, .pinW .addr false false,
      .wait .spin 3, .samp 0x1F#8, .pinW .ioStb false true, .ioRead 0x1F#8], 0x0000001F#32, true) := by decide

/-- B3.4, A6: the response is LAST_READ, once an IORD has completed. -/
theorem test_tcfg : (next? (step { start [0x2100000F#32] [] [] with lastRead := 0x1F#32, lastValid := true })).map
    (fun t => (t.resp, t.ev, t.ioReg, t.phase)) =
    some ([0x0000001F#32], [.latchW 0x00#8 0x0F#8, .pinW .dir true false, .oeW false true, .pinW .addr false true,
      .wait .spin 3, .pinW .ioStb true false, .wait .spin 3, .pinW .ioStb false true, .ioWrite true 0x0F#8],
      0x0F#8, .idle) := by decide

/-- B3.6. -/
theorem test_tcfg_illegal : (next? (step (start [0x21000010#32] [] []))).map (fun t => (t.fault, t.ev)) =
    some (some ⟨.illegalTouchConfig 0x10#8, 0⟩, []) := by decide

/-- B3.8: in the middle of a data phase. -/
theorem test_rota : (next? (step { inData [0x22000000#32] [] with env := { State.reset.env with rotIn := [true] } })).map
    (fun t => (t.resp, t.ev, t.phase)) = some ([0x00000001#32], [.rotA true], .dataPhase) := by decide

/-- B4.1. -/
theorem test_bqf : (next? (step (start [0x310003E8#32] [] []))).map (fun t => (t.resp, t.biq)) =
    some ([0x00000207#32], ⟨1000#16, 0#16, 519#16, 0#16⟩) := by decide

/-- B4.7: the second step saturates. -/
theorem test_bqf_saturates : biquadStep Config.refcfg.bqCoef ⟨0x8000#16, 0#16, BitVec.ofInt 16 (-17004), 0#16⟩
    0x7FFF#16 = ⟨0x7FFF#16, 0x8000#16, 0x7FFF#16, BitVec.ofInt 16 (-17004)⟩ := by decide

/-- B4.17. -/
theorem test_sqx : (next? (step (start [0x30030000#32, 0x00002EE0#32, 0x0000D120#32, 0x00002EE0#32] [] []))).map
    (fun t => (t.resp, t.biq, t.cp)) =
    some ([0#32], ⟨0x2EE0#16, 0xD120#16, 11027#16, BitVec.ofInt 16 (-12739)⟩, 4) := by decide

/-- B4.17: the three measures of its outputs. -/
theorem test_measures : [Measure.peakSq, .sumSq, .sumAbs].map
    (fun m => measureOf m [6227#16, BitVec.ofInt 16 (-12739), 11027#16]) = [162282121, 322652379, 29993] := by decide

/-- B4.18: the empty block. -/
theorem test_sqx_empty : (next? (step (start [0x30000000#32] [] []))).map (fun t => (t.resp, t.cp)) =
    some ([1#32], 1) := by decide

/-- B4.4: the rounding alone. -/
theorem test_rounding : [8192, 8191, -8192, -8193].map roundShift = [1, 0, 0, -1] := by decide

/-- R43 under REFCFG: the constraints on TOUCH_ENC hold. -/
theorem test_touchEnc : touchEncLegal Config.refcfg := by
  unfold touchEncLegal
  decide

/-! ### States and operands that meet the hypotheses of the statements, clause by clause -/

/-- The waits of REFCFG are legal, the premise of several statements. -/
theorem witness_waitsLegal : waitsLegal Config.refcfg := ⟨by decide, by decide, by decide, by decide⟩

theorem witness_DecodeOfEncode : (Instr.sqx (List.replicate 32 0xFFFF#16)).wellFormed = true ∧
    (Instr.lpixa []).wellFormed = true ∧ (Instr.lcmd 0xFF#8).wellFormed = true := by decide

theorem witness_EncodeOfDecode : decode [0x30010000#32, 0x0000FFFF#32, 0xFFFFFFFF#32] =
    .ok (.sqx [0xFFFF#16]) [0xFFFFFFFF#32] := by decide

theorem witness_HeadWordSelectsRow : (⟨"ADDR", 0xFFFFFFFE#32, 0x05000000#32⟩ : OpcodeRow) ∈ opcodeTable ∧
    (⟨"ADDR", 0xFFFFFFFE#32, 0x05000000#32⟩ : OpcodeRow).selects 0x05000001#32 = true := by decide

theorem witness_IllegalHeadWordRejected : ∀ r ∈ opcodeTable, r.selects 0x01000002#32 = false := by decide

/-- Both clauses at their least and greatest place: the only element, and the last of 32 samples. -/
theorem witness_IllegalElementRejected :
    ((∀ g ∈ ([] : List Word), upperField g = 0#16) ∧ upperField 0x00010000#32 ≠ 0#16 ∧
      ([] : List Word).length < (1#32).toNat ∧ (1#32).toNat ≤ ([] ++ [0x00010000#32]).length) ∧
    ((∀ g ∈ List.replicate 31 0#32, upperField g = 0#16) ∧ (List.replicate 31 0#32).length < (32#8).toNat ∧
      (32#8).toNat ≤ (List.replicate 31 0#32 ++ [0x80000000#32]).length ∧ (32#8).toNat ≤ 32) := by
  refine ⟨⟨by simp, by decide⟩, fun g hg => ?_, by decide⟩
  rw [(List.mem_replicate.1 hg).2]
  decide

theorem witness_TruncatedCommandRejected : ([] : List Word).length < (1#32).toNat ∧
    ((32#8).toNat ≤ 32 ∧ (List.replicate 31 0#32).length < (32#8).toNat) := by decide

theorem witness_LongBlockRejected : 32 < (33#8).toNat ∧ 32 < (255#8).toNat := by decide

theorem witness_StepRunsDecoded : (start [0x05000001#32] [] []).fault = none ∧
    decode ((start [0x05000001#32] [] []).cs.drop (start [0x05000001#32] [] []).cp) = .ok (.addr true) [] := by decide

/-- The three clauses, the last with CP past the first word. -/
theorem witness_StepRecordsDecodeFault :
    ((start [0x00000000#32] [] []).fault = none ∧
      (start [0x00000000#32] [] []).cp < (start [0x00000000#32] [] []).cs.length ∧
      decode ((start [0x00000000#32] [] []).cs.drop (start [0x00000000#32] [] []).cp) =
        .bad (.illegalCommand 0x00000000#32)) ∧
    decode ((start [0x30210000#32] [] []).cs.drop (start [0x30210000#32] [] []).cp) = .bad (.lengthMismatch 33) ∧
    decode (({ start [0x04000000#32, 0x13001234#32] [] [] with cp := 1 }).cs.drop 1) = .bad (.truncated 1) := by decide

/-- R231: the index of the missing word counts from the start of CS. -/
theorem test_truncated_index :
    (next? (step { start [0x04000000#32, 0x13001234#32] [] [] with cp := 1 })).map (fun t => t.fault) =
      some (some ⟨.truncatedCommand 2, 1⟩) := by decide

theorem witness_FaultedStateStops : (State.reset.raise .sampleWhileDriving).fault = some ⟨.sampleWhileDriving, 0⟩ := by
  decide

theorem witness_RunEndsAtStreamEnd : State.reset.fault = none ∧ State.reset.cp = State.reset.cs.length := by decide

/-- The premise on BUS_MASK that the results carry. -/
theorem witness_busMask : State.reset.busMask = 0xFFFF00FF#32 ∧ (inData [] []).busMask = 0xFFFF00FF#32 := by decide

/-- One state for each clause of SAMP, the settle count at and below W_SETUP. -/
theorem witness_SampResult :
    ((settled State.reset 3).busMask = 0xFFFF00FF#32 ∧ (settled State.reset 2).busMask = 0xFFFF00FF#32 ∧
      (inData [] []).busMask = 0xFFFF00FF#32) ∧
    ((settled State.reset 3).busOe = false ∧ (settled State.reset 3).settle.short = false) ∧
    (inData [] []).busOe = true ∧
    ((settled State.reset 2).busOe = false ∧ (settled State.reset 2).settle.short = true) := by decide

/-- Both clauses of WRA, WRD and STBD, the settle count at and below W_SETUP. -/
theorem witness_strobe_clauses : (settled State.reset 3).settle.short = false ∧
    (settled State.reset 2).settle.short = true ∧ State.reset.settle.short = false := by decide

theorem witness_WaitResults :
    (.cycles 65537 : Settle) = (match (settled State.reset 2).settle with
      | .cycles m => .cycles (m + (0xFFFF#16).toNat)
      | .inf => .inf) ∧
    (.inf : Settle) = (match State.reset.settle with
      | .cycles m => .cycles (m + (0xFFFF#16).toNat)
      | .inf => .inf) := by decide

theorem witness_SettleShortMeansBelowSetup : 3 ≤ 3 := by decide

theorem witness_PhaseAfterPrimitive :
    ∃ t u, exec (.addr true) (inData [] []) = .next t ∧ isPinPrimitive (.addr true) = true ∧
      (inData [] []).fault = none ∧ t.fault = none ∧
      exec (.drvl 0#16) (inData [] []) = .next u ∧ isQuietPrimitive (.drvl 0#16) = true :=
  ⟨_, _, rfl, rfl, rfl, rfl, rfl, rfl⟩

/-- Both clauses about commands; WRA completes twice when SETTLE is long enough between the two. -/
theorem witness_PrimitivesIdempotent :
    (∃ t u v w, exec (.setdir false) State.reset = .next t ∧ exec (.setdir false) t = .next u ∧
      isPinPrimitive (.setdir false) = true ∧
      exec (.drvh 0xABCD#16) State.reset = .next v ∧ exec (.drvh 0xABCD#16) v = .next w) ∧
    ∃ t u, isPinPrimitive .wra = true ∧ exec .wra State.reset = .next t ∧ t.fault = none ∧
      exec .wra { t with settle := .cycles 3 } = .next u ∧ (Settle.cycles 3).short = false ∧ u.fault = none :=
  ⟨⟨_, _, _, _, rfl, rfl, rfl, rfl, rfl⟩, _, _, rfl, rfl, rfl, rfl, rfl, rfl⟩

/-- A state from which each direction turns the bus around. -/
theorem witness_UopsNeverContend : noContention State.reset ∧ State.reset.pins.dir = true ∧
    noContention (inData [] []) ∧ (inData [] []).pins.dir = false := by
  unfold noContention
  decide

theorem witness_PrimitivesAppendNoAbstractEvent :
    ∃ t, isPrimitive .stba = true ∧ exec .stba State.reset = .next t := ⟨_, rfl, rfl⟩

theorem witness_PortRegisterViews :
    ∃ t u, exec (.setdir false) State.reset = .next t ∧ exec (.setdir true) State.reset = .next u := ⟨_, _, rfl, rfl⟩

/-- Both clauses, for each of the three commands. -/
theorem witness_DataWordResult : (inData [] []).busMask = 0xFFFF00FF#32 ∧ State.reset.busMask = 0xFFFF00FF#32 ∧
    (inData [] []).phase = .dataPhase ∧ State.reset.phase ≠ .dataPhase ∧
    (∀ i ∈ [Instr.ldat 0xFFFF#16, .lpix 0xFFFF#16, .lwrd 0xFFFF#16], fastData i = some [0xFFFF#16]) := by decide

/-- No data in Idle, data in DataPhase, and data outside it. -/
theorem witness_ArrayWriteResult : (inData [] []).busMask = 0xFFFF00FF#32 ∧
    State.reset.busMask = 0xFFFF00FF#32 ∧ (0#32).toNat = 0 ∧ (inData [] []).phase = .dataPhase ∧
    fastData (.lpixr 0xF800#16 1#32) = some [0xF800#16] ∧ fastData (.lpixa [0#16]) = some [0#16] ∧
    fastData (.lwrda [0#16]) = some [0#16] ∧ ([0#16] : List Half) ≠ [] ∧ State.reset.phase ≠ .dataPhase := by decide

/-- LRDID and LRDFM: DataPhase, ReadPhase and Idle, with the constant of BUS_MASK and the waits of REFCFG. -/
theorem witness_LrdResult : ∀ p ∈ [Phase.dataPhase, .readPhase, .idle],
    ({ inData [] [] with phase := p }).phase = p ∧ ({ inData [] [] with phase := p }).busMask = 0xFFFF00FF#32 ∧
    waitsLegal ({ inData [] [] with phase := p }).cfg := fun _ _ => ⟨rfl, rfl, witness_waitsLegal⟩

theorem witness_ReadProfilesAgree :
    ∃ t u, exec .lrdid (inData [] [0x93#8, 0x41#8]) = .next t ∧ exec .lrdfm (inData [] [0x93#8, 0x41#8]) = .next u ∧
      waitsLegal (inData [] [0x93#8, 0x41#8]).cfg ∧ (inData [] [0x93#8, 0x41#8]).busMask = 0xFFFF00FF#32 ∧
      (inData [] [0x93#8, 0x41#8]).phase = .dataPhase := ⟨_, _, rfl, rfl, witness_waitsLegal, rfl, rfl⟩

theorem witness_AddressLineLaw :
    ∃ t u v, fastData (.lpixr 0xF800#16 1#32) = some [0xF800#16] ∧
      exec (.lpixr 0xF800#16 1#32) (inData [] []) = .next t ∧ exec .lrdid (inData [] []) = .next u ∧
      exec (.lcmd 0x2A#8) (inData [] []) = .next v := ⟨_, _, _, rfl, rfl, rfl, rfl⟩

/-- Each clause, with no fault. -/
theorem witness_TransactionSizes :
    waitsLegal (inData [] []).cfg ∧ (inData [] []).phase = .dataPhase ∧ (inData [] []).busMask = 0xFFFF00FF#32 ∧
    ∃ t1 t2 t3 t4 t5 t6, exec (.lcmd 0x2C#8) (inData [] []) = .next t1 ∧ t1.fault = none ∧
      exec (.lwrda [1#16, 2#16]) (inData [] []) = .next t2 ∧ t2.fault = none ∧
      exec .lrdid (inData [] []) = .next t3 ∧ t3.fault = none ∧ exec .lrdfm (inData [] []) = .next t4 ∧ t4.fault = none ∧
      exec .iord (inData [] []) = .next t5 ∧ t5.fault = none ∧
      exec (.tcfg 0x0F#8) (inData [] []) = .next t6 ∧ t6.fault = none :=
  ⟨witness_waitsLegal, rfl, rfl, _, _, _, _, _, _, rfl, rfl, rfl, rfl, rfl, rfl, rfl, rfl, rfl, rfl, rfl, rfl⟩

theorem witness_TransactionsMeetSettleRule :
    ∃ t, isTransaction .lrdid = true ∧ waitsLegal State.reset.cfg ∧ State.reset.fault = none ∧
      exec .lrdid State.reset = .next t ∧ t.fault = some ⟨.phaseViolation .idle, 0⟩ :=
  ⟨_, rfl, witness_waitsLegal, rfl, rfl, rfl⟩

/-- Both clauses: each of the five bytes, and a byte that is none of them. -/
theorem witness_TcfgResult : State.reset.busMask = 0xFFFF00FF#32 ∧
    (∀ b ∈ [0x0F#8, 0x3C#8, 0x9E#8, 0x3E#8, 0xCB#8], ∃ c, touchByte State.reset.cfg c = b) ∧
    (∀ c, touchByte State.reset.cfg c ≠ 0x10#8) := by
  refine ⟨rfl, fun b hb => ?_, fun c => ?_⟩
  · simp only [List.mem_cons, List.not_mem_nil, or_false] at hb
    rcases hb with rfl | rfl | rfl | rfl | rfl
    exacts [⟨.float, rfl⟩, ⟨.waitTouch, rfl⟩, ⟨.sensePressure, rfl⟩, ⟨.senseX, rfl⟩, ⟨.senseY, rfl⟩]
  cases c <;> decide

theorem witness_TouchRoundTrip :
    ∃ a b c, exec .iord State.reset = .next a ∧ exec (.tcfg (touchByte State.reset.cfg .float)) a = .next b ∧
      exec (.tcfg (touchByte State.reset.cfg .senseY)) b = .next c := ⟨_, _, _, rfl, rfl, rfl⟩

theorem witness_OnlyIordWritesLastRead : ∃ t, Instr.tcfg 0x0F#8 ≠ .iord ∧ exec (.tcfg 0x0F#8) State.reset = .next t :=
  ⟨_, by decide, rfl⟩

/-- A command that appends IoWrite, and one that does not. -/
theorem witness_OnlyLegalBytesLatched :
    ∃ t u, exec (.tcfg 0x3E#8) State.reset = .next t ∧ Event.ioWrite true 0x3E#8 ∈ t.ev ∧
      exec .stba State.reset = .next u ∧ Event.ioWrite true 0x3E#8 ∉ u.ev :=
  ⟨_, _, rfl, by decide, rfl, by decide⟩

theorem witness_BiquadArithmeticLaws :
    absOf Config.refcfg.bqCoef.b0 + absOf Config.refcfg.bqCoef.b1 + absOf Config.refcfg.bqCoef.b2 +
      absOf Config.refcfg.bqCoef.a1 + absOf Config.refcfg.bqCoef.a2 = 52975 ∧ 52975 ≤ 65535 := by decide

/-- Both clauses of SQX at the boundary. -/
theorem witness_SqxResult : (List.replicate 32 0x7FFF#16).length ≤ 32 ∧ 32 < (List.replicate 33 0#16).length := by decide

theorem witness_MeasureBounds : (List.replicate 32 0x8000#16).length ≤ 32 ∧ 0x8000#16 ∈ List.replicate 32 0x8000#16 ∧
    List.replicate 32 0x8000#16 ≠ [] := by decide

theorem witness_FilterStatePersists :
    ∃ t u, ([20000#16, 0#16] : List Half).length ≤ 32 ∧ ([] : List Half).length ≤ 32 ∧
      exec (.sqx [20000#16, 0#16]) State.reset = .next t ∧ exec (.sqx []) t = .next u :=
  ⟨_, _, by decide, by decide, rfl, rfl⟩

theorem witness_SquelchIsIndependent :
    ∃ t u, isSquelch (.bqf 1000#16) = true ∧ exec (.bqf 1000#16) State.reset = .next t ∧
      isSquelch (.lcmd 0#8) = false ∧ exec (.lcmd 0#8) State.reset = .next u := ⟨_, _, rfl, rfl, rfl, rfl⟩

theorem witness_SilenceIsOpen : 32 ≤ 32 ∧ State.reset.biq = { x1 := 0#16, x2 := 0#16, y1 := 0#16, y2 := 0#16 } ∧
    State.reset.cfg.sqInvert = false := by decide

/-- The constant output 0 is one. -/
theorem witness_ZeroInputHasNoFixedPoint :
    biquadOut Config.refcfg.bqCoef { x1 := 0#16, x2 := 0#16, y1 := 0#16, y2 := 0#16 } 0#16 = 0#16 := by decide

/-- The invariant, and a step from a state that meets it. -/
theorem witness_StepKeepsSafetyInvariant : ∃ t, Inv (start [0x1000002C#32] [] []) ∧
    step (start [0x1000002C#32] [] []) = .next t :=
  ⟨_, ⟨witness_waitsLegal, rfl, by unfold noContention; decide, trivial, by decide, by decide, .inl rfl⟩, rfl⟩

/-- A fault at decode, and one at execution. -/
theorem witness_FaultsArePrecise :
    ∃ t u, step (start [0x00000000#32] [] []) = .next t ∧ t.fault = some ⟨.illegalCommand 0x00000000#32, 0⟩ ∧
      step (inData [0x04000000#32] []) = .next u ∧ u.fault = some ⟨.sampleWhileDriving, 0⟩ ∧
      waitsLegal (start [0x00000000#32] [] []).cfg ∧ waitsLegal (inData [0x04000000#32] []).cfg :=
  ⟨_, _, rfl, rfl, rfl, rfl, witness_waitsLegal, witness_waitsLegal⟩

/-- A command that completes, and one that faults. -/
theorem witness_CpAdvancesByLength :
    ∃ t u, State.reset.fault = none ∧ exec (.lpixr 0#16 0#32) State.reset = .next t ∧ t.fault = none ∧
      exec (.ldat 0#16) State.reset = .next u ∧ u.fault ≠ none := ⟨_, _, rfl, rfl, rfl, rfl, by decide⟩

/-- A step, the hypothesis of the statements about every step. -/
theorem witness_step : ∃ t, step (start [0x04000000#32] [0x5A#8] []) = .next t := ⟨_, rfl⟩

/-- A command that responds, and one that does not. -/
theorem witness_ValueReturningCommands :
    ∃ t u, State.reset.fault = none ∧ exec .samp State.reset = .next t ∧ t.fault = none ∧
      exec (.wait 3#16) State.reset = .next u ∧ u.fault = none := ⟨_, _, rfl, rfl, rfl, rfl, rfl⟩

/-- Two states that differ in the answers to come, in LAST_READ and in a response; a step, a fault and a refusal. -/
theorem witness_StepKeepsAgreement :
    (∃ s', AgreeButAnswers { start [0x04000000#32] [0x5A#8] [] with resp := [1#32] }
        { start [0x04000000#32] [0xA5#8] [] with resp := [2#32], lastRead := 7#32 } ∧
      step { start [0x04000000#32] [0x5A#8] [] with resp := [1#32] } = .next s') ∧
    step (State.reset.raise .sampleWhileDriving) = .fault (.halted ⟨.sampleWhileDriving, 0⟩) ∧
    step State.reset = .refused .endOfRun :=
  ⟨⟨_, ⟨rfl, rfl, rfl, rfl, rfl, rfl, rfl, rfl, rfl, rfl, rfl, rfl, rfl⟩, rfl⟩, rfl, rfl⟩

/-- The least number of cycles of 355 ns at 200 MHz is 71. -/
theorem witness_WaitCyclesAreCeiling : 355 * Config.refcfg.fClk ≤ 71 * 1000000000 ∧
    ¬ 355 * Config.refcfg.fClk ≤ 70 * 1000000000 := by decide

end Sys2Proof.Tests
end

section
/-!
PROOFS. The family of 00_scope.md: a step is fetch, decode, and the run of the command found (rule R11).
-/
namespace Sys2Proof.Machine

/-- Words that decode to a command at CP put CP inside the stream: past its end even the head word is missing (R98). -/
theorem cp_lt_length_of_decode_ok {s : State} {i : Instr} {rest : List Word}
    (h : decode (s.cs.drop s.cp) = .ok i rest) : s.cp < s.cs.length := by
  by_contra hc
  have hnil : s.cs.drop s.cp = [] := List.drop_eq_nil_of_le (Nat.le_of_not_lt hc)
  rw [hnil, decode] at h
  cases h

/-- Where the words at CP decode, fetch finds the decoded command. -/
theorem fetch_of_decode_ok {s : State} {i : Instr} {rest : List Word}
    (h : decode (s.cs.drop s.cp) = .ok i rest) : s.fetch = .command i := by
  rw [fetch_inside (cp_lt_length_of_decode_ok h), h]

/-- An unfaulted step runs the command that fetch finds, with nothing around it (R11). -/
theorem step_of_fetch_command {s : State} {i : Instr} (hfault : s.fault = none) (hfetch : s.fetch = .command i) :
    step s = exec i s := by
  rw [step, hfault, hfetch]

/-- Settles O9: the words at CP decode, so fetch finds their command, and an unfaulted step runs what fetch finds. -/
theorem stepRunsDecoded : Obligations.StepRunsDecoded := by
  unfold Obligations.StepRunsDecoded
  intro s i rest hfault hdecode
  exact step_of_fetch_command hfault (fetch_of_decode_ok hdecode)

end Sys2Proof.Machine
end

section
/-!
PROOFS. A command takes as many words of the stream as it is long (30_encoding.md rule R97).
-/
namespace Sys2Proof

/-- A head word that is a whole command stands for a command of one word (R97). -/
def Head.oneWord : Head → Prop
  | .single i => i.words = 1
  | .lpixr _ | .lpixa | .lwrda | .sqx _ => True

theorem noOperand_oneWord {imm : Half} {g h : Head} (e : noOperand imm g = some h) (hg : g.oneWord) :
    h.oneWord := by
  simp only [noOperand, Option.ite_none_right_eq_some, Option.some.injEq] at e
  exact e.2 ▸ hg

theorem bitOperand_oneWord {imm : Half} {mk : Level → Instr} {h : Head} (e : bitOperand imm mk = some h)
    (hmk : ∀ b, (mk b).words = 1) : h.oneWord := by
  simp only [bitOperand, Option.ite_none_right_eq_some, Option.some.injEq] at e
  exact e.2 ▸ hmk _

theorem byteOperand_oneWord {imm : Half} {mk : Byte → Instr} {h : Head} (e : byteOperand imm mk = some h)
    (hmk : ∀ b, (mk b).words = 1) : h.oneWord := by
  simp only [byteOperand, Option.ite_none_right_eq_some, Option.some.injEq] at e
  exact e.2 ▸ hmk _

theorem decodeImm_oneWord {op : Byte} {imm : Half} {h : Head} (e : decodeImm op imm = some h) : h.oneWord := by
  unfold decodeImm at e
  split at e
  case h_1 | h_5 => exact bitOperand_oneWord e fun _ => rfl
  case h_14 | h_24 => exact byteOperand_oneWord e fun _ => rfl
  case h_2 | h_3 | h_12 | h_13 | h_15 | h_16 | h_19 | h_26 => cases e; rfl
  case h_17 => cases e; trivial
  case h_18 | h_20 => exact noOperand_oneWord e trivial
  case h_27 => cases e
  all_goals exact noOperand_oneWord e rfl

theorem decodeHead_oneWord {w : Word} {h : Head} (e : decodeHead w = some h) : h.oneWord := by
  rw [decodeHead] at e
  split at e
  · exact noOperand_oneWord e trivial
  · exact decodeImm_oneWord (Option.ite_none_right_eq_some.1 e).2

/-- A command of format A takes its count word and its elements (R92, R97). -/
theorem decodeArray_length {mk : List Half → Instr} {ws rest : List Word} {i : Instr}
    (hmk : ∀ es, (mk es).words = 2 + es.length) (e : decodeArray mk ws = .ok i rest) :
    i.words + rest.length = ws.length + 1 := by
  cases ws with
  | nil => cases e
  | cons count ws =>
    rw [decodeArray] at e
    split at e
    case h_1 es rest' he =>
      cases e
      obtain ⟨-, rfl⟩ := takeElements_eq_ok he
      simp [hmk]; omega
    case h_2 => cases e

/-- SQX takes its samples (R93, R97). -/
theorem decodeSamples_length {len : Nat} {ws rest : List Word} {i : Instr} (e : decodeSamples len ws = .ok i rest) :
    i.words + rest.length = ws.length + 1 := by
  rw [decodeSamples] at e
  split at e
  · cases e
  split at e
  case h_1 es rest' he =>
    cases e
    obtain ⟨-, rfl⟩ := takeElements_eq_ok he
    simp [Instr.words]; omega
  case h_2 => cases e

theorem decodeTail_length {h : Head} {ws rest : List Word} {i : Instr} (hw : h.oneWord)
    (e : decodeTail h ws = .ok i rest) : i.words + rest.length = ws.length + 1 := by
  cases h with
  | single j => cases e; rw [hw, Nat.add_comm]
  | lpixr color =>
    cases ws with
    | nil => cases e
    | cons count ws => cases e; simp [Instr.words]; omega
  | lpixa => exact decodeArray_length (fun _ => rfl) e
  | lwrda => exact decodeArray_length (fun _ => rfl) e
  | sqx len => exact decodeSamples_length e

/-- Decoding takes as many words as the command is long (R97). -/
theorem decode_length {ws rest : List Word} {i : Instr} (e : decode ws = .ok i rest) :
    i.words + rest.length = ws.length := by
  cases ws with
  | nil => cases e
  | cons w ws =>
    rw [decode] at e
    cases hh : decodeHead w with
    | none => rw [hh] at e; cases e
    | some h => rw [hh] at e; exact decodeTail_length (decodeHead_oneWord hh) e

end Sys2Proof
end

section
/-!
PROOFS. The family of 10_state.md: the values after reset, the bus and its port registers, how far a command gets with
CP, RESP and EV (rules R37 to R39), and the safety invariant at command boundaries.
-/
namespace Sys2Proof.Machine

/-! ### Reset and stop -/

/-- Settles O50: each field of the reset state is the value R45 gives. -/
theorem resetValues : Obligations.ResetValues := by
  unfold Obligations.ResetValues
  intro p
  exact ⟨rfl, rfl, rfl, rfl, rfl, rfl, rfl, rfl, rfl, rfl, rfl, rfl, rfl, rfl, rfl, rfl, rfl⟩

/-- Settles O11: `step` looks at FAULT before anything else. -/
theorem faultedStateStops : Obligations.FaultedStateStops := by
  unfold Obligations.FaultedStateStops
  intro s r hfault
  rw [step, hfault]

/-! ### No contention (R42) -/

theorem noContention_of_dir {s : State} (h : s.pins.dir = false) : noContention s := by
  simp [noContention, h]

theorem noContention_of_busOe {s : State} (h : s.busOe = false) : noContention s := by
  simp [noContention, h]

theorem noContention_resetWith (p : Params) : noContention (State.resetWith p) := noContention_of_busOe rfl

/-- SETDIR leaves BUS_OE the opposite of P_DIR; no other micro-operation writes either. -/
theorem Uop.effect_noContention (u : Uop) {s : State} (h : noContention s) : noContention (u.effect s) := by
  rcases u.effect_dirOe s with ⟨d, -, hdir, hoe⟩ | ⟨hdir, hoe⟩
  · cases d
    · exact noContention_of_dir hdir
    · exact noContention_of_busOe hoe
  · rwa [noContention, hdir, hoe]

/-- Settles O24: reset listens, every micro-operation keeps the invariant, and SETDIR releases one side before it turns
the other on. -/
theorem uopsNeverContend : Obligations.UopsNeverContend := by
  unfold Obligations.UopsNeverContend
  refine ⟨noContention_resetWith, fun u s => u.effect_noContention,
    fun s => ⟨Uop.effect_setdir_write s, Uop.effect_setdir_read s⟩, fun s h => ?_⟩
  refine ⟨rfl, noContention_of_dir rfl, rfl, noContention_of_busOe rfl, fun hdir => ?_, fun hdir => hdir⟩
  rw [State.writePin_busOe]
  exact Bool.eq_false_of_not_eq_true fun hoe => h ⟨hoe, hdir⟩

/-! ### The port registers (R29, R30) -/

/-- The complement of the constant of BUS_MASK keeps a byte in bits 15:8 as it is. -/
theorem respByte_shift_and_not_mask (b : Byte) : (respByte b <<< 8) &&& ~~~0xFFFF00FF#32 = respByte b <<< 8 := by
  have hmask : ∀ k < 32, (~~~0xFFFF00FF#32).getLsbD k = (decide (8 ≤ k) && decide (k < 16)) := by decide
  apply BitVec.eq_of_getLsbD_eq
  intro k hk
  rw [BitVec.getLsbD_and, hmask k hk]
  by_cases hlow : k < 8
  · simp [hlow]
  by_cases hhigh : k < 16
  · simp [hhigh, Nat.le_of_not_lt hlow]
  · have hbyte : b.getLsbD (k - 8) = false := BitVec.getLsbD_of_ge b _ (by omega)
    simp [respByte, hbyte]

/-- SETDIR write is an OR on the bus bits of BUS_PDIR. -/
theorem busPdir_driving {s t : State} (h : t.busOe = true) (others : Word) :
    t.busPdir others = s.busPdir others ||| 0x0000FF00#32 := by
  cases hs : s.busOe <;> simp [State.busPdir, h, hs, BitVec.or_assoc]

/-- SETDIR read is an AND on the bus bits of BUS_PDIR. -/
theorem busPdir_listening {s t : State} (h : t.busOe = false) (others : Word) :
    t.busPdir others = s.busPdir others &&& 0xFFFF00FF#32 := by
  cases hs : s.busOe <;> simp [State.busPdir, h, hs, BitVec.and_or_distrib_right, BitVec.and_assoc]

/-- Settles O26: under the constant mask an access of BUS_MPIN is its bits 15:8, and BUS_PDIR follows BUS_OE. -/
theorem portRegisterViews : Obligations.PortRegisterViews := by
  unfold Obligations.PortRegisterViews
  refine ⟨fun s w hmask => ⟨?_, ?_⟩, fun s t u others ht hu => ⟨?_, ?_⟩⟩
  · rw [State.mpinWrite_outLatch, hmask, busField_busMaskReset, maskedLatch_zero, busField]
  · rw [State.mpinRead, hmask, respByte_shift_and_not_mask, respByte]
  · cases (exec_plainUop_ok s rfl rfl).symm.trans ht
    exact busPdir_driving rfl others
  · cases (exec_plainUop_ok s rfl rfl).symm.trans hu
    exact busPdir_listening rfl others

/-! ### How far a command gets

One relation for what every command does to CP, RESP and EV, what it leaves of the inputs, and what it keeps of the
invariant from one micro-operation to the next. -/

/-- A valid LAST_READ is a zero-extended byte (R32, D40). -/
def lastReadIsByte (s : State) : Prop := s.lastValid = true → s.lastRead.toNat < 256

/-- IO_REG holds its reset value or a legal byte (R31, R185). -/
def ioRegLegal (s : State) : Prop := s.ioReg = s.cfg.ioRegReset ∨ legalTouchByte s.cfg s.ioReg = true

/-- From `s` a command has come to `t`, having advanced CP by `words` and appended `responses` words to RESP. -/
structure Reaches (words responses : Nat) (s t : State) : Prop where
  cs : t.cs = s.cs
  cfg : t.cfg = s.cfg
  busMask : t.busMask = s.busMask
  fault : t.fault = s.fault
  cp : t.cp = s.cp + words
  resp : ∃ ws, ws.length = responses ∧ t.resp = s.resp ++ ws
  ev : ∃ es, t.ev = s.ev ++ es
  contention : noContention s → noContention t
  lastRead : lastReadIsByte s → lastReadIsByte t
  ioReg : ioRegLegal s → ioRegLegal t

theorem Reaches.refl (s : State) : Reaches 0 0 s s :=
  ⟨rfl, rfl, rfl, rfl, rfl, ⟨[], rfl, by simp⟩, ⟨[], by simp⟩, id, id, id⟩

theorem Reaches.trans {n m n' m' : Nat} {s t u : State} (h : Reaches n m s t) (k : Reaches n' m' t u) :
    Reaches (n' + n) (m' + m) s u := by
  obtain ⟨ws, hlen, hresp⟩ := h.resp
  obtain ⟨ws', hlen', hresp'⟩ := k.resp
  obtain ⟨es, hev⟩ := h.ev
  obtain ⟨es', hev'⟩ := k.ev
  exact
    { cs := k.cs.trans h.cs
      cfg := k.cfg.trans h.cfg
      busMask := k.busMask.trans h.busMask
      fault := k.fault.trans h.fault
      cp := by rw [k.cp, h.cp]; omega
      resp := ⟨ws ++ ws', by simp [hlen, hlen', Nat.add_comm], by rw [hresp', hresp, List.append_assoc]⟩
      ev := ⟨es ++ es', by rw [hev', hev, List.append_assoc]⟩
      contention := k.contention ∘ h.contention
      lastRead := k.lastRead ∘ h.lastRead
      ioReg := k.ioReg ∘ h.ioReg }

section
variable (s : State)

theorem State.reaches_emit (e : Event) : Reaches 0 0 s (s.emit e) :=
  ⟨rfl, rfl, rfl, rfl, rfl, ⟨[], rfl, by simp⟩, ⟨[e], rfl⟩, id, id, id⟩

theorem State.reaches_setPhase (p : Phase) : Reaches 0 0 s (s.setPhase p) :=
  ⟨rfl, rfl, rfl, rfl, rfl, ⟨[], rfl, by simp⟩, ⟨[], by simp⟩, id, id, id⟩

theorem State.reaches_push (w : Word) : Reaches 0 1 s (s.push w) :=
  ⟨rfl, rfl, rfl, rfl, rfl, ⟨[w], rfl, rfl⟩, ⟨[], by simp⟩, id, id, id⟩

theorem State.reaches_advance (n : Nat) : Reaches n 0 s (s.advance n) :=
  ⟨rfl, rfl, rfl, rfl, rfl, ⟨[], rfl, by simp⟩, ⟨[], by simp⟩, id, id, id⟩

theorem State.reaches_setBiquad (b : Biquad) : Reaches 0 0 s (s.setBiquad b) :=
  ⟨rfl, rfl, rfl, rfl, rfl, ⟨[], rfl, by simp⟩, ⟨[], by simp⟩, id, id, id⟩

theorem State.reaches_takeRotA : Reaches 0 0 s s.takeRotA :=
  ⟨rfl, rfl, rfl, rfl, rfl, ⟨[], rfl, by simp⟩, ⟨[_], rfl⟩, id, id, id⟩

theorem State.reaches_setIoReg {b : Byte} (h : legalTouchByte s.cfg b = true) : Reaches 0 0 s (s.setIoReg b) :=
  ⟨rfl, rfl, rfl, rfl, rfl, ⟨[], rfl, by simp⟩, ⟨[], by simp⟩, id, id, fun _ => .inr h⟩

theorem State.reaches_setLastRead {w : Word} (h : w.toNat < 256) : Reaches 0 0 s (s.setLastRead w) :=
  ⟨rfl, rfl, rfl, rfl, rfl, ⟨[], rfl, by simp⟩, ⟨[], by simp⟩, id, fun _ _ => h, id⟩

theorem reaches_pushLastRead : Reaches 0 1 s (pushLastRead s) := by
  rw [pushLastRead_eq]
  exact ⟨rfl, rfl, rfl, rfl, rfl, ⟨[_], rfl, rfl⟩, ⟨[], by simp⟩, id, id, id⟩

/-- A micro-operation moves no CP, gives no response and keeps the invariant's registers (R120, R42). -/
theorem Uop.reaches_effect (u : Uop) : Reaches 0 0 s (u.effect s) := by
  have k := u.effect_keeps s
  obtain ⟨es, hev, -⟩ := k.ev
  exact ⟨k.cs, k.cfg, k.busMask, k.fault, k.cp, ⟨[], rfl, by simp [k.resp]⟩, ⟨es, hev⟩, u.effect_noContention,
    by simp [lastReadIsByte, k.lastRead, k.lastValid], by simp [ioRegLegal, k.ioReg, k.cfg]⟩

end

/-- A command that goes on has advanced and responded; one whose check failed has done neither (R98, R232). -/
def Progress.Reaches (words responses : Nat) (s : State) : Progress → Prop
  | .ok t => Machine.Reaches words responses s t
  | .raised _ t => Machine.Reaches 0 0 s t

theorem Progress.reaches_of_last {p : Progress} {s : State} (h : Machine.Reaches 0 0 s p.last) : p.Reaches 0 0 s := by
  cases p with
  | ok t => exact h
  | raised k t => exact h

/-- What a command does from `t` on, counted from an `s` before it. -/
theorem Progress.Reaches.after {n m : Nat} {s t : State} {p : Progress} (h : Machine.Reaches 0 0 s t)
    (hp : p.Reaches n m t) : p.Reaches n m s := by
  cases p with
  | ok u => exact Machine.Reaches.trans h hp
  | raised k u => exact Machine.Reaches.trans h hp

/-- A part of a command that neither advances nor responds, then the rest. -/
theorem Progress.Reaches.andThen {n m : Nat} {s : State} {p : Progress} {f : State → Progress} (h : p.Reaches 0 0 s)
    (hf : ∀ t, Machine.Reaches 0 0 s t → (f t).Reaches n m t) : (p.andThen f).Reaches n m s := by
  cases p with
  | ok t => exact (hf t h).after h
  | raised k t => exact h

/-- The last part of a command. -/
theorem Progress.Reaches.finish {n m : Nat} {s : State} {p : Progress} {f : State → State} (h : p.Reaches 0 0 s)
    (hf : ∀ t, Machine.Reaches n m t (f t)) : (p.andThen fun t => .ok (f t)).Reaches n m s :=
  h.andThen fun t _ => hf t

theorem reaches_guardWith (s : State) (c : Bool) (k : FaultKind) : (s.guardWith c k).Reaches 0 0 s := by
  cases c
  · exact Reaches.refl s
  · exact Reaches.refl s

theorem reaches_runUops (us : List Uop) (s : State) : (runUops us s).Reaches 0 0 s :=
  Progress.reaches_of_last
    (runUops_last_rel (Reaches 0 0) Reaches.refl Reaches.trans (fun u s => Uop.reaches_effect s u) us s)

theorem reaches_run (u : Uop) (s : State) : (u.run s).Reaches 0 0 s := by
  rw [Uop.run]
  cases u.check s with
  | none => exact Uop.reaches_effect s u
  | some k => exact Reaches.refl s

theorem reaches_primitive (u : Uop) (s : State) : (primitive u s).Reaches 1 0 s :=
  (reaches_run u s).finish fun t => (t.reaches_setPhase _).trans (State.reaches_advance _ 1)

theorem reaches_dataWrites (vs : List Half) (s : State) : (dataWrites vs s).Reaches 0 0 s := by
  induction vs generalizing s with
  | nil => exact Reaches.refl s
  | cons v vs ih => exact ((reaches_runUops _ s).finish fun t => t.reaches_emit _).andThen fun t _ => ih t

theorem reaches_fastWrite (vs : List Half) (len : Nat) (s : State) : (fastWrite vs len s).Reaches len 0 s := by
  have hcheck : (if vs.isEmpty then Progress.ok s else requireDataPhase s).Reaches 0 0 s := by
    split
    · exact Reaches.refl s
    · exact reaches_guardWith s _ _
  exact hcheck.andThen fun t _ => (reaches_dataWrites vs t).finish fun u => u.reaches_advance len

theorem reaches_readTransaction (profile : Profile) (waitHi waitLo : Uop) (s : State) :
    (readTransaction profile waitHi waitLo s).Reaches 1 1 s :=
  (reaches_guardWith s _ _).andThen fun s0 _ =>
  (reaches_runUops _ s0).andThen fun s1 _ =>
  ((reaches_runUops _ _).after (s1.reaches_setPhase _)).andThen fun s2 _ =>
  (reaches_runUops _ s2).andThen fun s3 _ =>
  (reaches_runUops _ s3).finish fun s4 =>
    ((s4.reaches_emit _).trans (State.reaches_push _ _)).trans (State.reaches_advance _ 1)

/-- The response of SAMP comes after the micro-operation has completed as a command (R124). -/
theorem reaches_samp (s : State) : ∃ p : Progress, exec .samp s = p.outcome ∧ p.Reaches 1 1 s := by
  refine ⟨_, exec_samp s, ?_⟩
  have h := reaches_primitive .samp s
  cases hp : primitive .samp s with
  | ok t => rw [hp] at h; exact Reaches.trans h (t.reaches_push _)
  | raised k t => rw [hp] at h; exact h

theorem reaches_lcmd (cmd : Byte) (s : State) :
    ∃ p : Progress, exec (.lcmd cmd) s = p.outcome ∧ p.Reaches 1 0 s := by
  rw [exec_lcmd, execLcmd]
  refine ⟨_, rfl, ?_⟩
  exact (reaches_runUops _ s).andThen fun s1 _ =>
    ((reaches_runUops _ _).after (s1.reaches_setPhase _)).andThen fun s2 _ =>
    ((reaches_runUops _ _).after (s2.reaches_emit _)).finish fun s3 =>
      (s3.reaches_setPhase _).trans (State.reaches_advance _ 1)

theorem reaches_iord (s : State) : ∃ p : Progress, exec .iord s = p.outcome ∧ p.Reaches 1 1 s := by
  rw [exec_iord, execIord]
  refine ⟨_, rfl, ?_⟩
  exact (reaches_runUops _ s).andThen fun s1 _ =>
    (reaches_runUops _ s1).finish fun s2 =>
      ((((s2.reaches_emit _).trans (State.reaches_setLastRead _ (respByte_lt _))).trans
        (State.reaches_setPhase _ _)).trans (State.reaches_push _ _)).trans (State.reaches_advance _ 1)

/-- The check of R102 is what makes the byte that IO_REG takes a legal one. -/
theorem reaches_tcfg (b : Byte) (s : State) :
    ∃ p : Progress, exec (.tcfg b) s = p.outcome ∧ p.Reaches 1 1 s := by
  rw [exec_tcfg, execTcfg]
  refine ⟨_, rfl, ?_⟩
  cases hb : legalTouchByte s.cfg b with
  | false => exact Reaches.refl s
  | true =>
    refine (reaches_guardWith s true _).andThen fun s0 h0 => (reaches_runUops _ s0).andThen fun s1 h1 => ?_
    have hb1 : legalTouchByte s1.cfg b = true := by rw [h1.cfg, h0.cfg, hb]
    exact ((((s1.reaches_emit _).trans (State.reaches_setIoReg _ hb1)).trans (State.reaches_setPhase _ _)).trans
      (reaches_pushLastRead _)).trans (State.reaches_advance _ 1)

theorem reaches_sqx (xs : List Half) (s : State) :
    ∃ p : Progress, exec (.sqx xs) s = p.outcome ∧ p.Reaches (1 + xs.length) 1 s := by
  rw [exec_sqx, execSqx]
  refine ⟨_, rfl, ?_⟩
  exact (reaches_guardWith s _ _).finish fun t =>
    ((t.reaches_setBiquad _).trans (State.reaches_push _ _)).trans (State.reaches_advance _ _)

/-- The eight value-returning commands (R38, R101). -/
def returnsValue (i : Instr) : Prop :=
  i = .samp ∨ i = .rota ∨ i = .lrdid ∨ i = .lrdfm ∨ i = .iord ∨ (∃ c, i = .tcfg c) ∨ (∃ xs, i = .sqx xs) ∨
    ∃ x, i = .bqf x

/-- How many words a command that completes appends to RESP. -/
def responseCount : Instr → Nat
  | .samp | .rota | .lrdid | .lrdfm | .iord | .tcfg _ | .sqx _ | .bqf _ => 1
  | .setdir _ | .drvl _ | .drvh _ | .addr _ | .rda | .rdd | .wra | .wrd | .stba | .stbd | .wait _ | .pdelay _ | .lcmd _
  | .ldat _ | .lpix _ | .lpixr _ _ | .lpixa _ | .lwrd _ | .lwrda _ => 0

theorem responseCount_of_returnsValue {i : Instr} (h : returnsValue i) : responseCount i = 1 := by
  rcases h with rfl | rfl | rfl | rfl | rfl | ⟨_, rfl⟩ | ⟨_, rfl⟩ | ⟨_, rfl⟩ <;> rfl

theorem responseCount_of_not_returnsValue {i : Instr} (h : ¬ returnsValue i) : responseCount i = 0 := by
  cases i with
  | samp | rota | lrdid | lrdfm | iord | tcfg | sqx | bqf => exact absurd (by simp [returnsValue]) h
  | _ => rfl

/-- Every command, by the shared operation that it runs. -/
theorem exec_progress (i : Instr) (s : State) :
    ∃ p : Progress, exec i s = p.outcome ∧ p.Reaches i.words (responseCount i) s := by
  cases i with
  | setdir | drvl | drvh | addr | rda | rdd | wra | wrd | stba | stbd | wait | pdelay =>
    exact ⟨_, exec_plainUop s rfl, reaches_primitive _ s⟩
  | samp => exact reaches_samp s
  | lcmd cmd => exact reaches_lcmd cmd s
  | ldat | lpix | lpixr | lpixa | lwrd | lwrda => exact ⟨_, exec_fastData s rfl, reaches_fastWrite _ _ s⟩
  | lrdid => exact ⟨_, exec_lrdid s, reaches_readTransaction _ _ _ s⟩
  | lrdfm => exact ⟨_, exec_lrdfm s, reaches_readTransaction _ _ _ s⟩
  | iord => exact reaches_iord s
  | tcfg b => exact reaches_tcfg b s
  | rota =>
    exact ⟨.ok _, rfl, (s.reaches_takeRotA.trans (State.reaches_push _ _)).trans (State.reaches_advance _ 1)⟩
  | sqx xs => exact reaches_sqx xs s
  | bqf x =>
    exact ⟨.ok _, rfl, ((s.reaches_setBiquad _).trans (State.reaches_push _ _)).trans (State.reaches_advance _ 1)⟩

/-- A command that answers `t` has completed there, or a check has failed in a state it had come to (R11, R232). -/
theorem exec_reaches {i : Instr} {s t : State} (h : exec i s = .next t) :
    Reaches i.words (responseCount i) s t ∨ ∃ u k, Reaches 0 0 s u ∧ t = u.raise k := by
  obtain ⟨p, hp, hreach⟩ := exec_progress i s
  cases p with
  | ok u => cases hp.symm.trans h; exact .inl hreach
  | raised k u => cases hp.symm.trans h; exact .inr ⟨u, k, hreach, rfl⟩

theorem raise_fault_ne_none (s : State) (k : FaultKind) : (s.raise k).fault ≠ none := by
  cases h : s.fault <;> simp [State.raise, h]

/-- Settles O54: `exec_reaches`, and FAULT tells its two ends apart. -/
theorem cpAdvancesByLength : Obligations.CpAdvancesByLength := by
  unfold Obligations.CpAdvancesByLength
  intro i s t hfault h
  rcases exec_reaches h with hreach | ⟨u, k, hreach, rfl⟩
  · exact ⟨fun _ => hreach.cp, fun hne => absurd (hreach.fault.trans hfault) hne⟩
  · exact ⟨fun hnone => absurd hnone (raise_fault_ne_none u k), fun _ => hreach.cp⟩

theorem Reaches.resp_of_zero {n : Nat} {s t : State} (h : Reaches n 0 s t) : t.resp = s.resp := by
  obtain ⟨ws, hlen, hresp⟩ := h.resp
  rw [hresp, List.eq_nil_of_length_eq_zero hlen, List.append_nil]

theorem Reaches.resp_of_one {n : Nat} {s t : State} (h : Reaches n 1 s t) : ∃ w, t.resp = s.resp ++ [w] := by
  obtain ⟨ws, hlen, hresp⟩ := h.resp
  obtain ⟨w, rfl⟩ := List.length_eq_one_iff.1 hlen
  exact ⟨w, hresp⟩

/-- Settles O56: a command that completes appends `responseCount` words. -/
theorem valueReturningCommands : Obligations.ValueReturningCommands := by
  unfold Obligations.ValueReturningCommands
  intro i s t _ h hnone
  rcases exec_reaches h with hreach | ⟨u, k, -, rfl⟩
  · refine ⟨fun hv => ?_, fun hv => ?_⟩
    · rw [responseCount_of_returnsValue hv] at hreach
      exact hreach.resp_of_one
    · rw [responseCount_of_not_returnsValue hv] at hreach
      exact hreach.resp_of_zero
  · exact absurd hnone (raise_fault_ne_none u k)

/-- However a command ends, EV has grown and RESP has grown by at most one word (R38, R39). -/
theorem exec_history {i : Instr} {s t : State} (h : exec i s = .next t) :
    (∃ es, t.ev = s.ev ++ es) ∧ (t.resp = s.resp ∨ ∃ w, t.resp = s.resp ++ [w]) := by
  rcases exec_reaches h with hreach | ⟨u, k, hreach, rfl⟩
  · refine ⟨hreach.ev, ?_⟩
    by_cases hv : returnsValue i
    · rw [responseCount_of_returnsValue hv] at hreach
      exact .inr hreach.resp_of_one
    · rw [responseCount_of_not_returnsValue hv] at hreach
      exact .inl hreach.resp_of_zero
  · exact ⟨hreach.ev, .inl hreach.resp_of_zero⟩

/-- Settles O55: a step is a command or a decode fault, and a decode fault appends nothing. -/
theorem historyOnlyGrows : Obligations.HistoryOnlyGrows := by
  unfold Obligations.HistoryOnlyGrows
  intro s t h
  obtain ⟨-, -, ⟨i, rest, -, hexec⟩ | ⟨e, -, rfl⟩⟩ := step_eq_next h
  · exact exec_history hexec
  · exact ⟨⟨[], by simp⟩, .inl rfl⟩

/-! ### CP stays in the stream (R37, R263) -/

/-- The words of the command at CP lie inside the stream. -/
theorem cp_add_words_le {s : State} {i : Instr} {rest : List Word} (h : decode (s.cs.drop s.cp) = .ok i rest) :
    s.cp + i.words ≤ s.cs.length := by
  have hlen := decode_length h
  have hcp := cp_lt_length_of_decode_ok h
  rw [List.length_drop] at hlen
  omega

/-! ### The phase guarantees (R33) -/

theorem phaseGuarantee_of_idle {s : State} (h : s.phase = .idle) : phaseGuarantee s := by
  simp [phaseGuarantee, h]

section
variable {s : State} (hs : phaseGuarantee s)
include hs

theorem phaseGuarantee_raise (k : FaultKind) : phaseGuarantee (s.raise k) := hs

/-- A micro-operation issued as a command either writes no line or leaves Idle (R134). -/
theorem phaseGuarantee_primitive (u : Uop) : phaseGuarantee (primitive u s).last := by
  cases hc : u.check s with
  | some k => rw [primitive_raised hc]; exact hs
  | none =>
    rw [primitive_ok hc]
    cases u with
    | drvl | drvh | samp | wait | pdelay => exact hs
    | setdir | addr | rda | rdd | wra | wrd | stba | stbd => exact phaseGuarantee_of_idle rfl

/-- A data write leaves P_LCD_WR deasserted and the other lines as they were (R152). -/
theorem phaseGuarantee_afterDataWrite (v : Half) : phaseGuarantee (afterDataWrite s v) := by
  cases hp : s.phase <;> simp_all [phaseGuarantee, afterDataWrite, deasserted]

theorem phaseGuarantee_fastWrite (hmask : s.busMask = Config.busMaskReset) (vs : List Half) (len : Nat) :
    phaseGuarantee (fastWrite vs len s).last := by
  by_cases hp : vs = [] ∨ s.phase = .dataPhase
  · rw [fastWrite_eq vs len hmask hp]
    exact List.foldlRecOn vs afterDataWrite hs fun _ ht v _ => phaseGuarantee_afterDataWrite ht v
  · rw [not_or] at hp
    rw [fastWrite_raised len hp.1 hp.2]
    exact hs

/-- An LCD read turns the bus around and leaves the lines its phase found for it (R158, R159). -/
theorem phaseGuarantee_readTransaction (hmask : s.busMask = Config.busMaskReset) (profile : Profile) (kind : WaitKind)
    {nHi nLo : Nat} (hHi : Config.wSetup ≤ nHi) (hLo : Config.wSetup ≤ nLo) :
    phaseGuarantee (readTransaction profile (waitUop kind nHi) (waitUop kind nLo) s).last := by
  cases hp : s.phase.readable with
  | false => rw [readTransaction_raised _ _ _ hp]; exact hs
  | true =>
    rw [readTransaction_eq profile kind hmask hp hHi hLo]
    cases hphase : s.phase <;> simp_all [phaseGuarantee, afterRead, deasserted, Phase.readable]

end

theorem phaseGuarantee_outcome {p : Progress} {t : State} (hp : phaseGuarantee p.last) (h : p.outcome = .next t) :
    phaseGuarantee t := by
  cases p with
  | ok u => cases h; exact hp
  | raised k u => cases h; exact hp

/-- Every command leaves PHASE with the lines it guarantees: under the invariant no check fails midway. -/
theorem exec_phaseGuarantee {i : Instr} {s t : State} (hs : Inv s) (h : exec i s = .next t) : phaseGuarantee t := by
  obtain ⟨hIdHi, hIdLo, hFmHi, hFmLo⟩ := hs.waits
  cases i with
  | setdir | drvl | drvh | addr | rda | rdd | wra | wrd | stba | stbd | wait | pdelay =>
    exact phaseGuarantee_outcome (phaseGuarantee_primitive hs.phase _) ((exec_plainUop s rfl).symm.trans h)
  | samp =>
    cases hc : Uop.samp.check s with
    | none => cases (exec_samp_ok s hc).symm.trans h; exact hs.phase
    | some k => cases (exec_samp_raised s hc).symm.trans h; exact hs.phase
  | ldat | lpix | lpixr | lpixa | lwrd | lwrda =>
    exact phaseGuarantee_outcome (phaseGuarantee_fastWrite hs.phase hs.mask _ _) ((exec_fastData s rfl).symm.trans h)
  | lrdid =>
    exact phaseGuarantee_outcome (phaseGuarantee_readTransaction hs.phase hs.mask _ _ hIdHi hIdLo)
      ((exec_lrdid s).symm.trans h)
  | lrdfm =>
    exact phaseGuarantee_outcome (phaseGuarantee_readTransaction hs.phase hs.mask _ _ hFmHi hFmLo)
      ((exec_lrdfm s).symm.trans h)
  | lcmd cmd =>
    cases (execLcmd_eq cmd s).symm.trans h
    simp [phaseGuarantee, deasserted]
  | iord =>
    cases (execIord_eq s).symm.trans h
    exact phaseGuarantee_of_idle rfl
  | tcfg b =>
    cases hb : legalTouchByte s.cfg b with
    | false => cases (execTcfg_raised hb).symm.trans h; exact hs.phase
    | true =>
      cases (execTcfg_eq hb).symm.trans h
      exact phaseGuarantee_of_idle (by simp [pushLastRead_eq])
  | rota => cases h; exact hs.phase
  | sqx xs =>
    rw [exec_sqx, execSqx, State.guardWith] at h
    split at h
    · cases h; exact hs.phase
    · cases h; exact hs.phase
  | bqf x => cases h; exact hs.phase

/-! ### The safety invariant -/

/-- Settles O51: reset drives nothing, is Idle, and has read and latched nothing. -/
theorem resetMeetsSafetyInvariant : Obligations.ResetMeetsSafetyInvariant := by
  unfold Obligations.ResetMeetsSafetyInvariant
  have hreset : ∀ p, waitsLegal p → Inv (State.resetWith p) := fun p hp =>
    { waits := hp
      mask := rfl
      contention := noContention_resetWith p
      phase := phaseGuarantee_of_idle rfl
      cp := Nat.zero_le _
      lastRead := fun h => nomatch h
      ioReg := .inl rfl }
  exact ⟨hreset _ Tests.witness_waitsLegal, hreset⟩

/-- A fault entry keeps the invariant: it records the fault and changes nothing else (R232). -/
theorem Inv.raise {s : State} (h : Inv s) (k : FaultKind) : Inv (s.raise k) :=
  ⟨h.waits, h.mask, h.contention, h.phase, h.cp, h.lastRead, h.ioReg⟩

/-- What a command keeps from one micro-operation to the next, with PHASE and CP as it leaves them, is the invariant. -/
theorem Inv.of_reaches {n m : Nat} {s t : State} (hs : Inv s) (h : Reaches n m s t) (hphase : phaseGuarantee t)
    (hcp : s.cp + n ≤ s.cs.length) : Inv t where
  waits := h.cfg ▸ hs.waits
  mask := h.busMask.trans hs.mask
  contention := h.contention hs.contention
  phase := hphase
  cp := by rw [h.cp, h.cs]; exact hcp
  lastRead := h.lastRead hs.lastRead
  ioReg := h.ioReg hs.ioReg

/-- Settles O52: a decode fault changes nothing but FAULT; a command keeps the registers' part (`exec_reaches`), leaves
the phase guarantees (`exec_phaseGuarantee`), and moves CP over words that decode found in the stream. -/
theorem stepKeepsSafetyInvariant : Obligations.StepKeepsSafetyInvariant := by
  unfold Obligations.StepKeepsSafetyInvariant
  intro s t hs h
  obtain ⟨-, -, ⟨i, rest, hdecode, hexec⟩ | ⟨e, -, rfl⟩⟩ := step_eq_next h
  · have hphase := exec_phaseGuarantee hs hexec
    rcases exec_reaches hexec with hreach | ⟨u, k, hreach, rfl⟩
    · exact hs.of_reaches hreach hphase (cp_add_words_le hdecode)
    · exact (hs.of_reaches hreach hphase hs.cp).raise k
  · exact hs.raise _

end Sys2Proof.Machine
end

section
/-!
PROOFS. The family of 20_memory.md: commands that reach past the stream (rule R67), the inputs a step only reads
(rule R74), and what the environment's answers cannot reach (rule R75).
-/
namespace Sys2Proof

/-! ### Commands that reach past the stream (R67) -/

theorem decode_of_decodeHead {w : Word} {h : Head} (e : decodeHead w = some h) (ws : List Word) :
    decode (w :: ws) = decodeTail h ws := by
  rw [decode, e]

theorem decodeHead_lpixr (color : Half) : decodeHead (packHead 0x13#8 0#8 color) = some (.lpixr color) := by
  simp [decodeHead, decodeImm]

theorem decodeHead_lpixa : decodeHead 0x14000000#32 = some .lpixa := by decide

theorem decodeHead_lwrda : decodeHead 0x16000000#32 = some .lwrda := by decide

theorem decodeHead_sqx (len : Byte) : decodeHead (packHead 0x30#8 len 0#16) = some (.sqx len) := by
  simp [decodeHead, noOperand]

/-- Missing element words are found before any element word is looked at (R98). -/
theorem takeElements_truncated {n : Nat} {ws : List Word} (before : Nat) (h : ws.length < n) :
    takeElements n before ws = .bad (.truncated (before + ws.length)) :=
  if_pos h

theorem decodeArray_truncated (mk : List Half → Instr) {count : Word} {ws : List Word} (h : ws.length < count.toNat) :
    decodeArray mk (count :: ws) = .bad (.truncated (2 + ws.length)) := by
  rw [decodeArray, takeElements_truncated 2 h]

theorem decodeSamples_truncated {len : Nat} {ws : List Word} (hlen : len ≤ Config.sqN) (h : ws.length < len) :
    decodeSamples len ws = .bad (.truncated (1 + ws.length)) := by
  rw [decodeSamples, if_neg (Nat.not_lt.2 hlen), takeElements_truncated 1 h]

/-- Settles O6: each head word is legal, and what it asks for after it is not all there. -/
theorem truncatedCommandRejected : Obligations.TruncatedCommandRejected := by
  unfold Obligations.TruncatedCommandRejected
  refine ⟨fun color => ?_, ?_, ?_, fun count ws h => ⟨?_, ?_⟩, fun len ws hlen h => ?_⟩
  · exact decode_of_decodeHead (decodeHead_lpixr color) []
  · exact decode_of_decodeHead decodeHead_lpixa []
  · exact decode_of_decodeHead decodeHead_lwrda []
  · exact (decode_of_decodeHead decodeHead_lpixa _).trans (decodeArray_truncated _ h)
  · exact (decode_of_decodeHead decodeHead_lwrda _).trans (decodeArray_truncated _ h)
  · exact (decode_of_decodeHead (decodeHead_sqx len) ws).trans (decodeSamples_truncated hlen h)

end Sys2Proof

namespace Sys2Proof.Machine

/-! ### Two states that agree in all but the answers (R75) -/

/-- Two outcomes of the same kind: next states that agree, or the same fault or refusal. -/
def OutcomesAgree : Host.Outcome State Fault Refusal → Host.Outcome State Fault Refusal → Prop
  | .next a, o => ∃ b, o = .next b ∧ AgreeButAnswers a b
  | .fault f, o => o = .fault f
  | .refused r, o => o = .refused r

theorem Progress.Agree.outcomesAgree {p q : Progress} (h : p.Agree q) : OutcomesAgree p.outcome q.outcome := by
  obtain ⟨a, b, hp, hq, hab⟩ := h.outcome
  rw [hp, hq]
  exact ⟨b, rfl, hab⟩

/-- The last part of a command, which may write different answers in the two states. -/
theorem Progress.Agree.finish {p q : Progress} {f g : State → State} (h : p.Agree q)
    (hf : ∀ a b, AgreeButAnswers a b → AgreeButAnswers (f a) (g b)) :
    (p.andThen fun a => .ok (f a)).Agree (q.andThen fun b => .ok (g b)) :=
  h.andThen fun a b hab => Progress.agree_ok (hf a b hab)

section
variable {s t : State} (h : AgreeButAnswers s t)
include h

theorem requireDataPhase_agree : (requireDataPhase s).Agree (requireDataPhase t) := by
  rw [requireDataPhase, requireDataPhase, h.phase]
  exact guardWith_agree h _ _

theorem requireReadable_agree : (requireReadable s).Agree (requireReadable t) := by
  rw [requireReadable, requireReadable, h.phase]
  exact guardWith_agree h _ _

theorem Uop.run_agree (u : Uop) : (u.run s).Agree (u.run t) := by
  rw [Uop.run, Uop.run, Uop.check_agree h u]
  cases u.check s with
  | none => exact Progress.agree_ok (Uop.effect_agree h u)
  | some k => exact ⟨t, rfl, h⟩

theorem primitive_agree (u : Uop) : (primitive u s).Agree (primitive u t) :=
  (Uop.run_agree h u).finish fun a b hab => by
    rw [hab.phase]
    exact (hab.setPhase _).advance 1

theorem dataWrite_agree (v : Half) : (dataWrite v s).Agree (dataWrite v t) :=
  (runUops_agree _ h).finish fun _ _ hab => hab.emit _ _

theorem dataWrites_agree (vs : List Half) : (dataWrites vs s).Agree (dataWrites vs t) := by
  induction vs generalizing s t with
  | nil => exact Progress.agree_ok h
  | cons v vs ih => exact (dataWrite_agree h v).andThen fun _ _ hab => ih hab

theorem fastWrite_agree (vs : List Half) (len : Nat) : (fastWrite vs len s).Agree (fastWrite vs len t) := by
  have hcheck : (if vs.isEmpty then Progress.ok s else requireDataPhase s).Agree
      (if vs.isEmpty then Progress.ok t else requireDataPhase t) := by
    split
    · exact Progress.agree_ok h
    · exact requireDataPhase_agree h
  exact hcheck.andThen fun _ _ hab => (dataWrites_agree hab vs).finish fun _ _ hcd => hcd.advance len

/-- The two sampled bytes reach only the event and the response at the end (R158, R159). -/
theorem readTransaction_agree (profile : Profile) (waitHi waitLo : Uop) :
    (readTransaction profile waitHi waitLo s).Agree (readTransaction profile waitHi waitLo t) :=
  (requireReadable_agree h).andThen fun _ _ h0 =>
  (runUops_agree _ h0).andThen fun _ _ h1 =>
  (runUops_agree _ (h1.setPhase _)).andThen fun _ _ h2 =>
  (runUops_agree _ h2).andThen fun _ _ h3 =>
  (runUops_agree _ h3).finish fun _ _ h4 => ((h4.emit _ _).push _ _).advance 1

theorem execSamp_agree : OutcomesAgree (execSamp s) (execSamp t) :=
  ((primitive_agree h .samp).finish fun _ _ hab => hab.push _ _).outcomesAgree

theorem execLcmd_agree (cmd : Byte) : OutcomesAgree (execLcmd cmd s) (execLcmd cmd t) :=
  ((runUops_agree _ h).andThen fun _ _ h1 =>
    (runUops_agree _ (h1.setPhase _)).andThen fun _ _ h2 =>
    (runUops_agree _ (h2.emit _ _)).finish fun _ _ h3 => (h3.setPhase _).advance 1).outcomesAgree

/-- The sampled byte reaches LAST_READ, the event and the response, and no other register (R181). -/
theorem execIord_agree : OutcomesAgree (execIord s) (execIord t) :=
  ((runUops_agree _ h).andThen fun _ _ h1 =>
    (runUops_agree _ h1).finish fun _ _ h2 =>
      ((((h2.emit _ _).setLastRead _ _).setPhase _).push _ _).advance 1).outcomesAgree

theorem execTcfg_agree (b : Byte) : OutcomesAgree (execTcfg b s) (execTcfg b t) := by
  rw [execTcfg, execTcfg, h.cfg]
  exact ((guardWith_agree h _ _).andThen fun _ _ h0 =>
    (runUops_agree _ h0).finish fun _ _ h1 =>
      ((((h1.emit _ _).setIoReg b).setPhase _).pushLastRead).advance 1).outcomesAgree

theorem execRota_agree : OutcomesAgree (execRota s) (execRota t) :=
  ⟨_, rfl, (h.takeRotA.push _ _).advance 1⟩

theorem execSqx_agree (xs : List Half) : OutcomesAgree (execSqx xs s) (execSqx xs t) :=
  ((guardWith_agree h _ _).finish fun _ _ hab => by
    rw [hab.cfg, hab.biq]
    exact ((hab.setBiquad _).push _ _).advance _).outcomesAgree

theorem execBqf_agree (x : Half) : OutcomesAgree (execBqf x s) (execBqf x t) := by
  rw [execBqf, execBqf, h.cfg, h.biq]
  exact ⟨_, rfl, ((h.setBiquad _).push _ _).advance 1⟩

/-- Every command, by the shared operation that it runs. -/
theorem exec_agree (i : Instr) : OutcomesAgree (exec i s) (exec i t) := by
  cases i with
  | setdir | drvl | drvh | addr | rda | rdd | wra | wrd | stba | stbd | wait | pdelay =>
    rw [exec_plainUop s rfl, exec_plainUop t rfl]
    exact (primitive_agree h _).outcomesAgree
  | ldat | lpix | lpixr | lpixa | lwrd | lwrda =>
    rw [exec_fastData s rfl, exec_fastData t rfl]
    exact (fastWrite_agree h _ _).outcomesAgree
  | lrdid =>
    rw [exec_lrdid, exec_lrdid, h.cfg]
    exact (readTransaction_agree h _ _ _).outcomesAgree
  | lrdfm =>
    rw [exec_lrdfm, exec_lrdfm, h.cfg]
    exact (readTransaction_agree h _ _ _).outcomesAgree
  | samp => exact execSamp_agree h
  | lcmd cmd => exact execLcmd_agree h cmd
  | iord => exact execIord_agree h
  | tcfg b => exact execTcfg_agree h b
  | rota => exact execRota_agree h
  | sqx xs => exact execSqx_agree h xs
  | bqf x => exact execBqf_agree h x

theorem fetch_agree : t.fetch = s.fetch := by
  rw [State.fetch, h.cs, h.cp, State.fetch]

/-- FAULT and what fetch finds choose the branch of a step, and neither rests on an answer. -/
theorem step_agree : OutcomesAgree (step s) (step t) := by
  rw [step, step, h.fault, fetch_agree h]
  cases s.fault with
  | some r => exact rfl
  | none =>
    cases s.fetch with
    | command i => exact exec_agree h i
    | illegal k => exact ⟨_, rfl, h.raise k⟩
    | ended => exact rfl
    | outside => exact rfl

end

/-- Settles O60: `step_agree`, read for each kind of outcome. -/
theorem stepKeepsAgreement : Obligations.StepKeepsAgreement := by
  unfold Obligations.StepKeepsAgreement
  intro s t h
  have hstep := step_agree h
  refine ⟨fun s' e => ?_, fun f e => ?_, fun r e => ?_⟩
  · rw [e] at hstep; exact hstep
  · rw [e] at hstep; exact hstep
  · rw [e] at hstep; exact hstep

/-- A state agrees with itself under any other answers to come. -/
theorem AgreeButAnswers.withEnv (s : State) (e : Env) : AgreeButAnswers s { s with env := e } :=
  ⟨rfl, rfl, rfl, rfl, rfl, rfl, rfl, rfl, rfl, rfl, rfl, rfl, rfl⟩

/-- Settles O58: a state under other answers agrees with itself, and a step keeps the agreement. -/
theorem stepIgnoresAnswers : Obligations.StepIgnoresAnswers := by
  unfold Obligations.StepIgnoresAnswers
  intro s t e hnext
  obtain ⟨u, hu, h⟩ := (stepKeepsAgreement s _ (AgreeButAnswers.withEnv s e)).1 t hnext
  exact ⟨u, hu, h.bus, h.phase, h.settle, h.biq, h.cp, h.fault, h.ioReg, h.lastValid, h.ev, h.resp⟩

/-! ### The inputs a step only reads (R44, R74) -/

/-- The inputs of a run: the stream, the parameters, the two scripts of answers, and BUS_MASK (R28). -/
structure Inputs where
  cs : List Word
  cfg : Params
  busIn : List Byte
  rotIn : List Level
  busMask : Word

/-- The inputs as a state holds them. -/
def State.inputs (s : State) : Inputs := ⟨s.cs, s.cfg, s.env.busIn, s.env.rotIn, s.busMask⟩

theorem UopKeeps.inputs {s t : State} (h : UopKeeps s t) : t.inputs = s.inputs := by
  simp [State.inputs, h.cs, h.cfg, h.busIn, h.rotIn, h.busMask]

theorem pushLastRead_inputs (s : State) : (pushLastRead s).inputs = s.inputs := by
  rw [pushLastRead]
  split
  · rfl
  · rfl

/-- A command that has come, or failed, where the inputs are those of `s`. -/
def Progress.KeepsInputs (s : State) (p : Progress) : Prop := p.last.inputs = s.inputs

theorem Progress.KeepsInputs.andThen {s : State} {p : Progress} {f : State → Progress} (h : p.KeepsInputs s)
    (hf : ∀ t, (f t).KeepsInputs t) : (p.andThen f).KeepsInputs s :=
  andThen_last_rel (fun a b => b.inputs = a.inputs) (fun hab hbc => hbc.trans hab) h hf

/-- The last part of a command. -/
theorem Progress.KeepsInputs.finish {s : State} {p : Progress} {f : State → State} (h : p.KeepsInputs s)
    (hf : ∀ t, (f t).inputs = t.inputs) : (p.andThen fun t => .ok (f t)).KeepsInputs s :=
  h.andThen hf

theorem inputs_of_outcome {s t : State} {p : Progress} (ht : p.outcome = .next t) (h : p.KeepsInputs s) :
    t.inputs = s.inputs := by
  cases p with
  | ok u => cases ht; exact h
  | raised k u => cases ht; exact h

theorem guardWith_keepsInputs (s : State) (c : Bool) (k : FaultKind) : (s.guardWith c k).KeepsInputs s := by
  cases c
  · exact rfl
  · exact rfl

theorem runUops_keepsInputs (us : List Uop) (s : State) : (runUops us s).KeepsInputs s := (runUops_keeps us s).inputs

theorem primitive_keepsInputs (u : Uop) (s : State) : (primitive u s).KeepsInputs s := by
  cases hc : u.check s with
  | none => rw [primitive_ok hc]; exact (u.effect_keeps s).inputs
  | some k => rw [primitive_raised hc]; exact rfl

theorem dataWrite_keepsInputs (v : Half) (s : State) : (dataWrite v s).KeepsInputs s :=
  (runUops_keepsInputs _ s).finish fun _ => rfl

theorem dataWrites_keepsInputs (vs : List Half) (s : State) : (dataWrites vs s).KeepsInputs s := by
  induction vs generalizing s with
  | nil => exact rfl
  | cons v vs ih => exact (dataWrite_keepsInputs v s).andThen ih

theorem fastWrite_keepsInputs (vs : List Half) (len : Nat) (s : State) : (fastWrite vs len s).KeepsInputs s := by
  have hcheck : (if vs.isEmpty then Progress.ok s else requireDataPhase s).KeepsInputs s := by
    split
    · exact rfl
    · exact guardWith_keepsInputs s _ _
  exact hcheck.andThen fun t => (dataWrites_keepsInputs vs t).finish fun _ => rfl

theorem readTransaction_keepsInputs (profile : Profile) (waitHi waitLo : Uop) (s : State) :
    (readTransaction profile waitHi waitLo s).KeepsInputs s :=
  (guardWith_keepsInputs s _ _).andThen fun s0 =>
  (runUops_keepsInputs _ s0).andThen fun s1 =>
  (runUops_keepsInputs _ (s1.setPhase .readPhase)).andThen fun s2 =>
  (runUops_keepsInputs _ s2).andThen fun s3 =>
  (runUops_keepsInputs _ s3).finish fun _ => rfl

theorem execSamp_inputs {s t : State} (h : execSamp s = .next t) : t.inputs = s.inputs :=
  inputs_of_outcome h <| (primitive_keepsInputs .samp s).finish fun _ => rfl

theorem execLcmd_inputs {cmd : Byte} {s t : State} (h : execLcmd cmd s = .next t) : t.inputs = s.inputs :=
  inputs_of_outcome h <| (runUops_keepsInputs _ s).andThen fun s1 =>
    (runUops_keepsInputs _ (s1.setPhase .commandPhase)).andThen fun s2 =>
    (runUops_keepsInputs _ (s2.emit _)).finish fun _ => rfl

theorem execIord_inputs {s t : State} (h : execIord s = .next t) : t.inputs = s.inputs :=
  inputs_of_outcome h <| (runUops_keepsInputs _ s).andThen fun s1 => (runUops_keepsInputs _ s1).finish fun _ => rfl

/-- TCFG may use up a drawn word, and no entry of a script (R182). -/
theorem execTcfg_inputs {b : Byte} {s t : State} (h : execTcfg b s = .next t) : t.inputs = s.inputs :=
  inputs_of_outcome h <| (guardWith_keepsInputs s _ _).andThen fun s0 =>
    (runUops_keepsInputs _ s0).finish fun _ => pushLastRead_inputs _

theorem execSqx_inputs {xs : List Half} {s t : State} (h : execSqx xs s = .next t) : t.inputs = s.inputs :=
  inputs_of_outcome h <| (guardWith_keepsInputs s _ _).finish fun _ => rfl

/-- No command writes an input: an answer is read off a script by a counter, and the script stays (R75). -/
theorem exec_inputs {i : Instr} {s t : State} (h : exec i s = .next t) : t.inputs = s.inputs := by
  cases i with
  | setdir | drvl | drvh | addr | rda | rdd | wra | wrd | stba | stbd | wait | pdelay =>
    exact inputs_of_outcome ((exec_plainUop s rfl).symm.trans h) (primitive_keepsInputs _ s)
  | ldat | lpix | lpixr | lpixa | lwrd | lwrda =>
    exact inputs_of_outcome ((exec_fastData s rfl).symm.trans h) (fastWrite_keepsInputs _ _ s)
  | lrdid => exact inputs_of_outcome ((exec_lrdid s).symm.trans h) (readTransaction_keepsInputs _ _ _ s)
  | lrdfm => exact inputs_of_outcome ((exec_lrdfm s).symm.trans h) (readTransaction_keepsInputs _ _ _ s)
  | samp => exact execSamp_inputs h
  | lcmd cmd => exact execLcmd_inputs h
  | iord => exact execIord_inputs h
  | tcfg b => exact execTcfg_inputs h
  | rota => cases h; rfl
  | sqx xs => exact execSqx_inputs h
  | bqf x => cases h; rfl

theorem step_inputs {s t : State} (h : step s = .next t) : t.inputs = s.inputs := by
  obtain ⟨-, -, ⟨i, rest, -, hexec⟩ | ⟨e, -, rfl⟩⟩ := step_eq_next h
  · exact exec_inputs hexec
  · rfl

/-- Settles O57: `step_inputs`, field by field. -/
theorem stepKeepsInputs : Obligations.StepKeepsInputs := by
  unfold Obligations.StepKeepsInputs
  intro s t h
  have hi := step_inputs h
  exact ⟨congrArg Inputs.cs hi, congrArg Inputs.cfg hi, congrArg Inputs.busIn hi, congrArg Inputs.rotIn hi,
    congrArg Inputs.busMask hi⟩

end Sys2Proof.Machine
end

section
/-!
PROOFS. The family of 30_encoding.md: decoding and encoding are each other's inverse (rules R90 to R97), the head words
the opcode table allows (rule R95), and the words that raise IllegalCommand (rule R96).
-/
namespace Sys2Proof

/-! ### What encodes decodes (R90 to R97) -/

theorem bitOperand_bitImm (b : Level) (mk : Level → Instr) : bitOperand (bitImm b) mk = some (.single (mk b)) := by
  simp [bitOperand]

theorem byteOperand_byteImm (b : Byte) (mk : Byte → Instr) : byteOperand (byteImm b) mk = some (.single (mk b)) := by
  simp [byteOperand]

/-- Outside SQX a head word with `aux` 0 is read by its `op` and `imm` (R96 item 2). -/
theorem decodeHead_packHead {op : Byte} (hop : op ≠ 0x30#8) (imm : Half) :
    decodeHead (packHead op 0#8 imm) = decodeImm op imm := by
  simp [decodeHead, hop]

theorem decode_oneWord {op : Byte} {imm : Half} {i : Instr} (hop : op ≠ 0x30#8)
    (h : decodeImm op imm = some (.single i)) (rest : List Word) : decode (packHead op 0#8 imm :: rest) = .ok i rest :=
  decode_of_decodeHead ((decodeHead_packHead hop imm).trans h) rest

theorem decodeArray_encoded (mk : List Half → Instr) {es : List Half} (h : es.length < 2 ^ 32) (rest : List Word) :
    decodeArray mk (BitVec.ofNat 32 es.length :: (es.map elementWord ++ rest)) = .ok (mk es) rest := by
  rw [decodeArray, BitVec.toNat_ofNat, Nat.mod_eq_of_lt h, takeElements_encoded]

theorem decodeSamples_encoded {xs : List Half} (h : xs.length ≤ Config.sqN) (rest : List Word) :
    decodeSamples xs.length (xs.map elementWord ++ rest) = .ok (.sqx xs) rest := by
  rw [decodeSamples, if_neg (Nat.not_lt.2 h), takeElements_encoded]

/-- The `aux` of a head word holds every legal block length (R93). -/
theorem toNat_blockLength {n : Nat} (h : n ≤ Config.sqN) : (BitVec.ofNat 8 n).toNat = n :=
  Nat.mod_eq_of_lt (Nat.lt_of_le_of_lt h (by decide))

/-- Settles O1, by the format of the command: one word, a head word with a count, an array, a block of samples. -/
theorem decodeOfEncode : Obligations.DecodeOfEncode := by
  unfold Obligations.DecodeOfEncode
  intro i rest hwf
  cases i
  case setdir d => exact decode_oneWord (op := 0x01#8) (by decide) (bitOperand_bitImm d .setdir) rest
  case addr a => exact decode_oneWord (op := 0x05#8) (by decide) (bitOperand_bitImm a .addr) rest
  case lcmd cmd => exact decode_oneWord (op := 0x10#8) (by decide) (byteOperand_byteImm cmd .lcmd) rest
  case tcfg config => exact decode_oneWord (op := 0x21#8) (by decide) (byteOperand_byteImm config .tcfg) rest
  case lpixr color count => exact decode_of_decodeHead (decodeHead_lpixr color) (count :: rest)
  case lpixa es =>
    exact (decode_of_decodeHead decodeHead_lpixa _).trans (decodeArray_encoded .lpixa (of_decide_eq_true hwf) rest)
  case lwrda es =>
    exact (decode_of_decodeHead decodeHead_lwrda _).trans (decodeArray_encoded .lwrda (of_decide_eq_true hwf) rest)
  case sqx xs =>
    have hlen : xs.length ≤ Config.sqN := of_decide_eq_true hwf
    calc decode (encode (.sqx xs) ++ rest)
      _ = decodeSamples (BitVec.ofNat 8 xs.length).toNat (xs.map elementWord ++ rest) :=
          decode_of_decodeHead (decodeHead_sqx _) _
      _ = .ok (.sqx xs) rest := by rw [toNat_blockLength hlen, decodeSamples_encoded hlen]
  all_goals exact decode_oneWord (by decide) rfl rest

/-- Settles O8: each list of words is the encoding of its command, with the words left over. -/
theorem specWordsDecode : Obligations.SpecWordsDecode := by
  unfold Obligations.SpecWordsDecode
  exact ⟨decodeOfEncode (.setdir true) [] rfl, decodeOfEncode (.drvl 0xAB2C#16) [] rfl,
    decodeOfEncode (.pdelay 71#16) [] rfl, decodeOfEncode (.lcmd 0x2C#8) [] rfl,
    decodeOfEncode (.lpixr 0xF800#16 3#32) [0x17000000#32] rfl,
    decodeOfEncode (.lwrda [0x1234#16, 0x5678#16]) [] rfl, decodeOfEncode (.tcfg 0xCB#8) [] rfl,
    decodeOfEncode (.sqx [0x2EE0#16, 0xD120#16, 0x2EE0#16]) [] rfl, decodeOfEncode (.bqf 0xFC18#16) [] rfl⟩

/-! ### What decodes is an encoding (R90 to R97) -/

/-- The word `w` is the head word of `h`; a head of format S is a whole command. -/
def Head.HasWord (w : Word) : Head → Prop
  | .single i => i.wellFormed = true ∧ encode i = [w]
  | .lpixr color => packHead 0x13#8 0#8 color = w
  | .lpixa => packHead 0x14#8 0#8 0#16 = w
  | .lwrda => packHead 0x16#8 0#8 0#16 = w
  | .sqx len => packHead 0x30#8 len 0#16 = w

/-- Where the high `m` bits are 0, every bit from `n` up is 0. -/
theorem getLsbD_of_upper_zero {m n k : Nat} {x : BitVec (m + n)} (h : x.extractLsb' n m = 0#m) (hk : n ≤ k) :
    x.getLsbD k = false := by
  obtain ⟨j, rfl⟩ := Nat.exists_eq_add_of_le hk
  by_cases hj : j < m
  · simpa [hj] using congrArg (fun v => v.getLsbD j) h
  · exact BitVec.getLsbD_of_ge _ _ (by omega)

/-- A one-bit operand is the whole immediate when its reserved bits are 0. -/
theorem bitImm_of_upper_zero {imm : Half} (h : imm.extractLsb' 1 15 = 0#15) : bitImm (imm.getLsbD 0) = imm := by
  apply BitVec.eq_of_getLsbD_eq
  intro k hk
  cases k with
  | zero => cases imm.getLsbD 0 <;> rfl
  | succ k =>
    rw [getLsbD_of_upper_zero (m := 15) (n := 1) h (Nat.le_add_left 1 k)]
    cases imm.getLsbD 0 <;> simp [bitImm]

/-- A byte operand is the whole immediate when its reserved bits are 0. -/
theorem byteImm_of_upper_zero {imm : Half} (h : imm.extractLsb' 8 8 = 0#8) : byteImm (imm.extractLsb' 0 8) = imm := by
  apply BitVec.eq_of_getLsbD_eq
  intro k hk
  by_cases hlow : k < 8
  · simp [byteImm, hlow, hk]
  · rw [getLsbD_of_upper_zero (m := 8) (n := 8) h (Nat.not_lt.1 hlow)]
    simp [byteImm, hlow]

theorem noOperand_hasWord {op aux : Byte} {imm : Half} {g h : Head} (e : noOperand imm g = some h)
    (hg : g.HasWord (packHead op aux 0#16)) : h.HasWord (packHead op aux imm) := by
  simp only [noOperand, Option.ite_none_right_eq_some, Option.some.injEq] at e
  obtain ⟨rfl, rfl⟩ := e
  exact hg

theorem bitOperand_hasWord {op : Byte} {imm : Half} {mk : Level → Instr} {h : Head} (e : bitOperand imm mk = some h)
    (hmk : ∀ b, (Head.single (mk b)).HasWord (packHead op 0#8 (bitImm b))) : h.HasWord (packHead op 0#8 imm) := by
  simp only [bitOperand, Option.ite_none_right_eq_some, Option.some.injEq] at e
  obtain ⟨hz, rfl⟩ := e
  simpa only [bitImm_of_upper_zero hz] using hmk (imm.getLsbD 0)

theorem byteOperand_hasWord {op : Byte} {imm : Half} {mk : Byte → Instr} {h : Head} (e : byteOperand imm mk = some h)
    (hmk : ∀ b, (Head.single (mk b)).HasWord (packHead op 0#8 (byteImm b))) : h.HasWord (packHead op 0#8 imm) := by
  simp only [byteOperand, Option.ite_none_right_eq_some, Option.some.injEq] at e
  obtain ⟨hz, rfl⟩ := e
  simpa only [byteImm_of_upper_zero hz] using hmk (imm.extractLsb' 0 8)

theorem decodeImm_hasWord {op : Byte} {imm : Half} {h : Head} (e : decodeImm op imm = some h) :
    h.HasWord (packHead op 0#8 imm) := by
  unfold decodeImm at e
  split at e
  case h_1 | h_5 => exact bitOperand_hasWord e fun _ => ⟨rfl, rfl⟩
  case h_14 | h_24 => exact byteOperand_hasWord e fun _ => ⟨rfl, rfl⟩
  case h_2 | h_3 | h_12 | h_13 | h_15 | h_16 | h_19 | h_26 => cases e; exact ⟨rfl, rfl⟩
  case h_17 => cases e; rfl
  case h_18 | h_20 => exact noOperand_hasWord e rfl
  case h_27 => cases e
  all_goals exact noOperand_hasWord e ⟨rfl, rfl⟩

theorem decodeHead_hasWord {w : Word} {h : Head} (e : decodeHead w = some h) : h.HasWord w := by
  rw [← packHead_fields w]
  rw [decodeHead] at e
  split at e
  case isTrue hop => exact hop ▸ noOperand_hasWord e rfl
  case isFalse =>
    obtain ⟨haux, e⟩ := Option.ite_none_right_eq_some.1 e
    exact haux ▸ decodeImm_hasWord e

/-- What decodes as an array has its count word and its elements in front (R92). -/
theorem decodeArray_eq_ok {mk : List Half → Instr} {ws rest : List Word} {i : Instr}
    (e : decodeArray mk ws = .ok i rest) : ∃ es : List Half, i = mk es ∧ es.length < 2 ^ 32 ∧
      BitVec.ofNat 32 es.length :: es.map elementWord ++ rest = ws := by
  cases ws with
  | nil => cases e
  | cons count ws =>
    rw [decodeArray] at e
    split at e
    case h_1 es rest' he =>
      cases e
      obtain ⟨hlen, rfl⟩ := takeElements_eq_ok he
      exact ⟨es, rfl, hlen ▸ count.isLt, by rw [hlen, BitVec.ofNat_toNat]; simp⟩
    case h_2 => cases e

/-- What decodes as a block has a legal number of samples in front (R93). -/
theorem decodeSamples_eq_ok {len : Nat} {ws rest : List Word} {i : Instr} (e : decodeSamples len ws = .ok i rest) :
    ∃ xs : List Half, i = .sqx xs ∧ xs.length = len ∧ len ≤ Config.sqN ∧ xs.map elementWord ++ rest = ws := by
  rw [decodeSamples] at e
  split at e
  · cases e
  case isFalse hlen =>
    split at e
    case h_1 xs rest' he =>
      cases e
      obtain ⟨hxs, hws⟩ := takeElements_eq_ok he
      exact ⟨xs, rfl, hxs, Nat.not_lt.1 hlen, hws⟩
    case h_2 => cases e

theorem decodeTail_eq_ok {h : Head} {w : Word} {ws rest : List Word} {i : Instr} (hw : h.HasWord w)
    (e : decodeTail h ws = .ok i rest) : i.wellFormed = true ∧ encode i ++ rest = w :: ws := by
  cases h with
  | single j =>
    cases e
    obtain ⟨hwf, henc⟩ := hw
    exact ⟨hwf, by rw [henc]; rfl⟩
  | lpixr color =>
    cases ws with
    | nil => cases e
    | cons count ws =>
      cases e
      exact ⟨rfl, congrArg (· :: count :: rest) hw⟩
  | lpixa | lwrda =>
    obtain ⟨es, rfl, hlen, rfl⟩ := decodeArray_eq_ok e
    exact ⟨decide_eq_true hlen, congrArg (· :: _) hw⟩
  | sqx len =>
    obtain ⟨xs, rfl, hlen, hmax, rfl⟩ := decodeSamples_eq_ok e
    refine ⟨decide_eq_true (hlen ▸ hmax), ?_⟩
    rw [encode, hlen, BitVec.ofNat_toNat, BitVec.setWidth_eq]
    exact congrArg (· :: _) hw

/-- Settles O2: the head word is that of the head read from it, and the words after it are the rest of the encoding. -/
theorem encodeOfDecode : Obligations.EncodeOfDecode := by
  unfold Obligations.EncodeOfDecode
  intro ws rest i e
  cases ws with
  | nil => cases e
  | cons w ws =>
    rw [decode] at e
    split at e
    case h_1 => cases e
    case h_2 h hh => exact decodeTail_eq_ok (decodeHead_hasWord hh) e

/-! ### The opcode table (R95) -/

theorem opcodeTable_fields : ∀ r ∈ opcodeTable, opField r.mask = 0xFF#8 ∧ auxField r.pattern = 0#8 ∧
    immField r.pattern = 0#16 ∧ auxField r.mask = if opField r.pattern = 0x30#8 then 0#8 else 0xFF#8 := by decide

theorem opcodeTable_op_injective :
    ∀ r ∈ opcodeTable, ∀ q ∈ opcodeTable, opField r.pattern = opField q.pattern → r = q := by decide

/-- The row of the table with the given `op`. -/
def tableRow (op : Byte) : Option OpcodeRow := opcodeTable.find? (fun r => op == opField r.pattern)

/-- The mnemonic of the row, where the immediate has a 0 in every bit the row's mask looks at. -/
def OpcodeRow.mnemonicAt (r : OpcodeRow) (imm : Half) : Option String :=
  if imm &&& immField r.mask = 0#16 then some r.mnemonic else none

/-- A row is selected field by field (R90, R95). -/
theorem selects_iff_fields {r : OpcodeRow} {w : Word} : r.selects w = true ↔
    opField w &&& opField r.mask = opField r.pattern ∧ auxField w &&& auxField r.mask = auxField r.pattern ∧
      immField w &&& immField r.mask = immField r.pattern := by
  rw [← packHead_inj, ← packHead_and, packHead_fields, packHead_fields, packHead_fields, OpcodeRow.selects, beq_iff_eq]

/-- A row of the table looks at the whole `op`, asks `aux` to be 0 outside SQX, and asks the immediate to be 0 in the
bits its mask looks at. -/
theorem selects_iff {r : OpcodeRow} (hr : r ∈ opcodeTable) (w : Word) : r.selects w = true ↔
    opField w = opField r.pattern ∧ (opField w = 0x30#8 ∨ auxField w = 0#8) ∧
      immField w &&& immField r.mask = 0#16 := by
  obtain ⟨hop, haux, himm, hauxMask⟩ := opcodeTable_fields r hr
  have hones (b : Byte) : b &&& 0xFF#8 = b := BitVec.and_allOnes
  rw [selects_iff_fields, hop, haux, himm, hauxMask, hones]
  refine and_congr_right fun h => and_congr_left fun _ => ?_
  rw [← h]
  split <;> simp_all

theorem eq_of_selects {w : Word} : ∀ r ∈ opcodeTable, ∀ q ∈ opcodeTable, r.selects w = true → q.selects w = true →
    r = q := by
  intro r hr q hq hrw hqw
  obtain ⟨hrop, -⟩ := (selects_iff hr w).1 hrw
  obtain ⟨hqop, -⟩ := (selects_iff hq w).1 hqw
  exact opcodeTable_op_injective r hr q hq (hrop.symm.trans hqop)

/-- Where at most one element meets the test, searching the list finds exactly that one. -/
theorem find?_eq_some_iff_of_unique {α : Type} {l : List α} {p : α → Bool} {a : α}
    (h : ∀ x ∈ l, ∀ y ∈ l, p x = true → p y = true → x = y) : l.find? p = some a ↔ a ∈ l ∧ p a = true := by
  refine ⟨fun e => ⟨List.mem_of_find?_eq_some e, List.find?_some e⟩, fun ⟨ha, hpa⟩ => ?_⟩
  obtain ⟨b, hb⟩ := Option.isSome_iff_exists.1 (List.find?_isSome.2 ⟨a, ha, hpa⟩)
  rw [hb, h b (List.mem_of_find?_eq_some hb) a ha (List.find?_some hb) hpa]

theorem tableRow_eq_some_iff {op : Byte} {r : OpcodeRow} :
    tableRow op = some r ↔ r ∈ opcodeTable ∧ op = opField r.pattern := by
  rw [tableRow, find?_eq_some_iff_of_unique, beq_iff_eq]
  intro x hx y hy hpx hpy
  exact opcodeTable_op_injective x hx y hy ((beq_iff_eq.1 hpx).symm.trans (beq_iff_eq.1 hpy))

/-- The row a head word selects is the row of its `op`, where that row is selected. -/
theorem find?_selects (w : Word) :
    opcodeTable.find? (fun r => r.selects w) = (tableRow (opField w)).filter (fun r => r.selects w) := by
  ext r
  rw [find?_eq_some_iff_of_unique eq_of_selects, Option.filter_eq_some_iff, tableRow_eq_some_iff]
  exact ⟨fun ⟨hr, hw⟩ => ⟨⟨hr, ((selects_iff hr w).1 hw).1⟩, hw⟩, fun ⟨⟨hr, _⟩, hw⟩ => ⟨hr, hw⟩⟩

/-- The mnemonic of the row a head word selects. -/
theorem find?_selects_mnemonic (w : Word) : (opcodeTable.find? (fun r => r.selects w)).map OpcodeRow.mnemonic =
    if opField w = 0x30#8 ∨ auxField w = 0#8 then (tableRow (opField w)).bind (·.mnemonicAt (immField w)) else none := by
  rw [find?_selects]
  cases hr : tableRow (opField w) with
  | none => simp
  | some r =>
    obtain ⟨hmem, hop⟩ := tableRow_eq_some_iff.1 hr
    have hsel := selects_iff hmem w
    rw [← hop] at hsel
    simp only [Option.filter_some, hsel, true_and, Option.bind_some, OpcodeRow.mnemonicAt]
    split <;> split <;> simp_all

/-! ### A head word is read as its row (R95) -/

/-- The mask of the high `m` bits looks at those bits. -/
theorem and_highOnes_eq_zero_iff {m n : Nat} (x : BitVec (m + n)) :
    x &&& (BitVec.allOnes m ++ 0#n) = 0#(m + n) ↔ x.extractLsb' n m = 0#m := by
  constructor <;> intro h <;> apply BitVec.eq_of_getLsbD_eq <;> intro k hk
  · simpa [BitVec.getLsbD_append, hk] using congrArg (fun v => v.getLsbD (n + k)) h
  · by_cases hn : k < n
    · simp [BitVec.getLsbD_append, hn]
    · simp [getLsbD_of_upper_zero h (Nat.not_lt.1 hn)]

section
variable {op : Byte} {imm : Half} {r : OpcodeRow} (hr : tableRow op = some r)
include hr

theorem noOperand_mnemonic {h : Head} (hmask : immField r.mask = 0xFFFF#16) (hname : h.mnemonic = r.mnemonic) :
    (noOperand imm h).map Head.mnemonic = (tableRow op).bind (·.mnemonicAt imm) := by
  have hones : imm &&& 0xFFFF#16 = imm := BitVec.and_allOnes
  rw [hr, Option.bind_some, OpcodeRow.mnemonicAt, noOperand, hmask, hones, ← hname]
  split <;> rfl

theorem bitOperand_mnemonic {mk : Level → Instr} (hmask : immField r.mask = 0xFFFE#16)
    (hname : ∀ b, (mk b).mnemonic = r.mnemonic) :
    (bitOperand imm mk).map Head.mnemonic = (tableRow op).bind (·.mnemonicAt imm) := by
  have hbits : imm &&& 0xFFFE#16 = 0#16 ↔ _ := and_highOnes_eq_zero_iff (m := 15) (n := 1) imm
  rw [hr, Option.bind_some, OpcodeRow.mnemonicAt, bitOperand, hmask, ← hname (imm.getLsbD 0)]
  simp only [hbits]
  split <;> rfl

theorem byteOperand_mnemonic {mk : Byte → Instr} (hmask : immField r.mask = 0xFF00#16)
    (hname : ∀ b, (mk b).mnemonic = r.mnemonic) :
    (byteOperand imm mk).map Head.mnemonic = (tableRow op).bind (·.mnemonicAt imm) := by
  have hbits : imm &&& 0xFF00#16 = 0#16 ↔ _ := and_highOnes_eq_zero_iff (m := 8) (n := 8) imm
  rw [hr, Option.bind_some, OpcodeRow.mnemonicAt, byteOperand, hmask, ← hname (imm.extractLsb' 0 8)]
  simp only [hbits]
  split <;> rfl

theorem wholeOperand_mnemonic {h : Head} (hmask : immField r.mask = 0#16) (hname : h.mnemonic = r.mnemonic) :
    (some h).map Head.mnemonic = (tableRow op).bind (·.mnemonicAt imm) := by
  rw [hr, Option.bind_some, OpcodeRow.mnemonicAt, hmask, if_pos BitVec.and_zero, ← hname]
  rfl

end

theorem decodeImm_mnemonic {op : Byte} (hop : op ≠ 0x30#8) (imm : Half) :
    (decodeImm op imm).map Head.mnemonic = (tableRow op).bind (·.mnemonicAt imm) := by
  unfold decodeImm
  split
  case h_1 | h_5 => exact bitOperand_mnemonic rfl rfl fun _ => rfl
  case h_14 | h_24 => exact byteOperand_mnemonic rfl rfl fun _ => rfl
  case h_2 | h_3 | h_12 | h_13 | h_15 | h_16 | h_17 | h_19 | h_26 => exact wholeOperand_mnemonic rfl rfl rfl
  case h_27 =>
    have hnone : tableRow op = none := by
      rw [tableRow, List.find?_eq_none]
      simp [opcodeTable, opcodeTableBus, opcodeTableRest, opField]
      and_intros <;> assumption
    rw [hnone]
    rfl
  all_goals exact noOperand_mnemonic rfl rfl rfl

theorem decodeHead_mnemonic (w : Word) :
    (decodeHead w).map Head.mnemonic = (opcodeTable.find? (fun r => r.selects w)).map OpcodeRow.mnemonic := by
  rw [find?_selects_mnemonic, decodeHead]
  by_cases hop : opField w = 0x30#8
  · rw [if_pos hop, if_pos (.inl hop), hop]
    exact noOperand_mnemonic rfl rfl rfl
  · simp only [hop, if_false, false_or]
    split
    · exact decodeImm_mnemonic hop (immField w)
    · rfl

/-- Settles O3: the decoder reads the row of `op` as the table's mask does, and no two rows share an `op`. -/
theorem headWordSelectsRow : Obligations.HeadWordSelectsRow := by
  unfold Obligations.HeadWordSelectsRow
  exact fun w => ⟨decodeHead_mnemonic w, eq_of_selects⟩

/-! ### Words that raise IllegalCommand (R96) -/

/-- Settles O4: no row is found, so the decoder finds no head. -/
theorem illegalHeadWordRejected : Obligations.IllegalHeadWordRejected := by
  unfold Obligations.IllegalHeadWordRejected
  intro w rest h
  have hfind : opcodeTable.find? (fun r => r.selects w) = none :=
    List.find?_eq_none.2 fun r hr => by simp [h r hr]
  have hhead : decodeHead w = none := by
    rw [← Option.map_eq_none_iff (f := Head.mnemonic), decodeHead_mnemonic, hfind, Option.map_none]
  rw [decode, hhead]

/-- The first word with an upper bit set is the one that is reported (R233). -/
theorem takeElements_illegal {good tail : List Word} {w : Word} {n : Nat} (before : Nat)
    (hgood : ∀ g ∈ good, upperField g = 0#16) (hw : upperField w ≠ 0#16) (hn : good.length < n)
    (hlen : n ≤ (good ++ w :: tail).length) :
    takeElements n before (good ++ w :: tail) = .bad (.illegalCommand w) := by
  obtain ⟨k, rfl⟩ := Nat.exists_eq_add_of_lt hn
  have htake : (good ++ w :: tail).take (good.length + k + 1) = good ++ w :: tail.take k := by
    rw [Nat.add_assoc, List.take_length_add_append, List.take_succ_cons]
  have hnone : good.find? (fun g => upperField g != 0#16) = none := by
    simpa using hgood
  have hfind : (good ++ w :: tail.take k).find? (fun g => upperField g != 0#16) = some w := by
    rw [List.find?_append, hnone, Option.none_or, List.find?_cons_of_pos (by simpa using hw)]
  simp only [takeElements, if_neg (Nat.not_lt.2 hlen), htake, hfind]

/-- Settles O5: all words are there, so the first bad one is found. -/
theorem illegalElementRejected : Obligations.IllegalElementRejected := by
  unfold Obligations.IllegalElementRejected
  intro good tail w hgood hw
  refine ⟨fun count hn hlen => ⟨?_, ?_⟩, fun len hn hlen hmax => ?_⟩
  · rw [decode_of_decodeHead decodeHead_lpixa, decodeTail, decodeArray, takeElements_illegal 2 hgood hw hn hlen]
  · rw [decode_of_decodeHead decodeHead_lwrda, decodeTail, decodeArray, takeElements_illegal 2 hgood hw hn hlen]
  · rw [decode_of_decodeHead (decodeHead_sqx len), decodeTail, decodeSamples, if_neg (Nat.not_lt.2 hmax),
      takeElements_illegal 1 hgood hw hn hlen]

end Sys2Proof
end

section
/-!
PROOFS. The family of 40_bus_primitives.md: where each primitive command completes and what it changes (rules R121 to
R133), PHASE after it (rule R134), its idempotence on the bus (rule R135), and the events it appends (rule R136).
-/
namespace Sys2Proof.Machine

/-! ### What a primitive command can do (R120) -/

section
variable {i : Instr} {u : Uop} {s t : State}

/-- A primitive command with no response completes, or raises the fault of its check. -/
theorem exec_plainUop_cases (hu : plainUop i = some u) (h : exec i s = .next t) :
    (u.check s = none ∧ t = ((u.effect s).setPhase (u.phaseAfter s.phase)).advance 1) ∨
      ∃ k, u.check s = some k ∧ t = s.raise k := by
  cases hc : u.check s with
  | none => cases (exec_plainUop_ok s hu hc).symm.trans h; exact .inl ⟨rfl, rfl⟩
  | some k => cases (exec_plainUop_raised s hu hc).symm.trans h; exact .inr ⟨k, rfl, rfl⟩

/-- SAMP completes, or raises the fault of its check (R124). -/
theorem exec_samp_cases (h : exec .samp s = .next t) :
    t = ((s.takeSample.setPhase s.phase).advance 1).push (respByte s.sampleByte) ∨ ∃ k, t = s.raise k := by
  cases hc : Uop.samp.check s with
  | none => cases (exec_samp_ok s hc).symm.trans h; exact .inl rfl
  | some k => cases (exec_samp_raised s hc).symm.trans h; exact .inr ⟨k, rfl⟩

/-- SAMP is the one primitive command that responds. -/
theorem plainUop_of_isPrimitive (hi : isPrimitive i = true) : i = .samp ∨ ∃ u, plainUop i = some u := by
  cases i with
  | samp => exact .inl rfl
  | setdir | drvl | drvh | addr | rda | rdd | wra | wrd | stba | stbd | wait | pdelay => exact .inr ⟨_, rfl⟩
  | _ => cases hi

/-- A primitive command raises, or is the effect of its micro-operation with step (4) of R120, and SAMP's response. -/
theorem exec_primitive_cases (hi : isPrimitive i = true) (h : exec i s = .next t) :
    (∃ k, t = s.raise k) ∨
    (i = .samp ∧ t = ((s.takeSample.setPhase s.phase).advance 1).push (respByte s.sampleByte)) ∨
    ∃ u, plainUop i = some u ∧ t = ((u.effect s).setPhase (u.phaseAfter s.phase)).advance 1 := by
  rcases plainUop_of_isPrimitive hi with rfl | ⟨u, hu⟩
  · rcases exec_samp_cases h with ht | hraise
    · exact .inr (.inl ⟨rfl, ht⟩)
    · exact .inl hraise
  · rcases exec_plainUop_cases hu h with ⟨-, ht⟩ | ⟨k, -, ht⟩
    · exact .inr (.inr ⟨u, hu, ht⟩)
    · exact .inl ⟨k, ht⟩

end

theorem settleCheck_of_short {s : State} (h : s.settle.short = true) :
    s.settleCheck = some (.settleViolation s.settle) := by
  rw [State.settleCheck, if_pos h]

/-! ### PHASE (R134) -/

section
variable {i : Instr} {u : Uop}

theorem phaseAfter_of_isPinPrimitive (hu : plainUop i = some u) (hi : isPinPrimitive i = true) (p : Phase) :
    u.phaseAfter p = .idle := by
  cases i with
  | setdir | addr | rda | rdd | wra | wrd | stba | stbd => cases hu; rfl
  | _ => cases hi

theorem phaseAfter_of_isQuietPrimitive (hu : plainUop i = some u) (hi : isQuietPrimitive i = true) (p : Phase) :
    u.phaseAfter p = p := by
  cases i with
  | drvl | drvh | wait | pdelay => cases hu; rfl
  | samp => cases hu
  | _ => cases hi

end

theorem isPrimitive_of_isPinPrimitive {i : Instr} (h : isPinPrimitive i = true) : isPrimitive i = true := by
  rw [isPrimitive, h, Bool.true_or]

theorem isPrimitive_of_isQuietPrimitive {i : Instr} (h : isQuietPrimitive i = true) : isPrimitive i = true := by
  rw [isPrimitive, h, Bool.or_true]

theorem exec_isPinPrimitive_phase {i : Instr} {s t : State} (hi : isPinPrimitive i = true) (h : exec i s = .next t)
    (ht : t.fault = none) : t.phase = .idle := by
  rcases exec_primitive_cases (isPrimitive_of_isPinPrimitive hi) h with ⟨k, rfl⟩ | ⟨rfl, -⟩ | ⟨u, hu, rfl⟩
  · exact absurd ht (raise_fault_ne_none s k)
  · cases hi
  · exact phaseAfter_of_isPinPrimitive hu hi s.phase

theorem exec_isQuietPrimitive_phase {i : Instr} {s t : State} (hi : isQuietPrimitive i = true)
    (h : exec i s = .next t) : t.phase = s.phase := by
  rcases exec_primitive_cases (isPrimitive_of_isQuietPrimitive hi) h with ⟨k, rfl⟩ | ⟨-, rfl⟩ | ⟨u, hu, rfl⟩
  · rfl
  · rfl
  · exact phaseAfter_of_isQuietPrimitive hu hi s.phase

/-- Settles O22: PHASE is written by step (4) of R120 alone, which only a primitive command has. -/
theorem phaseAfterPrimitive : Obligations.PhaseAfterPrimitive := by
  unfold Obligations.PhaseAfterPrimitive
  intro i s t h
  exact ⟨fun hi _ ht => exec_isPinPrimitive_phase hi h ht, fun hi => exec_isQuietPrimitive_phase hi h,
    fun u => (u.effect_keeps s).phase⟩

/-! ### Idempotence on the bus (R135) -/

/-- What a micro-operation makes of the bus-facing state, `m` being the bus field of BUS_MASK. -/
def Uop.onBus (u : Uop) (m : Byte) (b : BusFacing) : BusFacing :=
  match u with
  | .setdir d => { b with dir := d, busOe := !d }
  | .drvl v => { b with outLatch := maskedLatch m b.outLatch (lowByte v) }
  | .drvh v => { b with outLatch := maskedLatch m b.outLatch (highByte v) }
  | .addr a => { b with addr := a }
  | .rda => { b with lcdRd := Config.strobeActive }
  | .rdd => { b with lcdRd := deasserted }
  | .wra => { b with lcdWr := Config.strobeActive }
  | .wrd => { b with lcdWr := deasserted }
  | .stba => { b with ioStb := Config.strobeActive }
  | .stbd => { b with ioStb := deasserted }
  | .samp | .wait _ | .pdelay _ => b

theorem busFacing_effect (u : Uop) (s : State) :
    busFacing (u.effect s) = u.onBus (busField s.busMask) (busFacing s) := by
  cases u with
  | setdir d => cases d <;> rfl
  | drvl v | drvh v => simp [busFacing, Uop.onBus]
  | _ => rfl

/-- A latch write is idempotent under any mask; every other write does not look at what it overwrites. -/
theorem Uop.onBus_idem (u : Uop) (m : Byte) (b : BusFacing) : u.onBus m (u.onBus m b) = u.onBus m b := by
  cases u with
  | drvl v | drvh v => simp only [Uop.onBus, maskedLatch_idem]
  | _ => rfl

/-- A state with the bus as `u` has left it is not changed there by another `u`. -/
theorem busFacing_effect_of_eq {u : Uop} {s t : State} (hbus : busFacing t = busFacing (u.effect s))
    (hmask : t.busMask = s.busMask) : busFacing (u.effect t) = busFacing t := by
  rw [busFacing_effect, hmask, hbus, busFacing_effect, Uop.onBus_idem]

theorem plainUop_of_writesBus {i : Instr}
    (hi : isPinPrimitive i = true ∨ (∃ v, i = .drvl v) ∨ ∃ v, i = .drvh v) : ∃ u, plainUop i = some u := by
  rcases hi with hpin | ⟨v, rfl⟩ | ⟨v, rfl⟩
  · rcases plainUop_of_isPrimitive (isPrimitive_of_isPinPrimitive hpin) with rfl | hu
    · cases hpin
    · exact hu
  · exact ⟨_, rfl⟩
  · exact ⟨_, rfl⟩

section
variable {i : Instr} {u : Uop} {s t t' : State}

/-- Where the effect would leave the bus as it is, so does the command, completed or not. -/
theorem exec_busFacing_of_fixed (hu : plainUop i = some u) (h : exec i t = .next t')
    (hfix : busFacing (u.effect t) = busFacing t) : busFacing t' = busFacing t := by
  rcases exec_plainUop_cases hu h with ⟨-, rfl⟩ | ⟨k, -, rfl⟩
  · exact hfix
  · rfl

/-- A requirement reads BUS_OE and SETTLE, which a raised fault leaves as they were. -/
theorem Uop.check_raise (u : Uop) (s : State) (k : FaultKind) : u.check (s.raise k) = u.check s := rfl

/-- A command that raised raises again; one that completed has left the bus as its effect leaves it. -/
theorem exec_twice_busFacing (hu : plainUop i = some u) (h : exec i s = .next t) (h' : exec i t = .next t') :
    busFacing t' = busFacing t := by
  rcases exec_plainUop_cases hu h with ⟨-, rfl⟩ | ⟨k, hc, rfl⟩
  · exact exec_busFacing_of_fixed hu h' (busFacing_effect_of_eq rfl (u.effect_keeps s).busMask)
  · cases (exec_plainUop_raised _ hu ((u.check_raise s k).trans hc)).symm.trans h'
    rfl

/-- A command that raised no fault has completed. -/
theorem eq_of_exec_plainUop_unfaulted (hu : plainUop i = some u) (h : exec i s = .next t) (ht : t.fault = none) :
    t = ((u.effect s).setPhase (u.phaseAfter s.phase)).advance 1 := by
  rcases exec_plainUop_cases hu h with ⟨-, ht'⟩ | ⟨k, -, rfl⟩
  · exact ht'
  · exact absurd ht (raise_fault_ne_none s k)

theorem exec_twice_settled_busFacing {x : Settle} (hu : plainUop i = some u) (h : exec i s = .next t)
    (ht : t.fault = none) (h' : exec i (t.setSettle x) = .next t') : busFacing t' = busFacing t := by
  cases eq_of_exec_plainUop_unfaulted hu h ht
  exact (exec_busFacing_of_fixed hu h' (busFacing_effect_of_eq rfl (u.effect_keeps s).busMask)).trans rfl

/-- SETTLE is all that a primitive command with no response requires (R265). -/
theorem check_of_plainUop (hu : plainUop i = some u) (hs : s.settle.short = false) : u.check s = none := by
  cases i with
  | wra | wrd | stbd => cases hu; exact settleCheck_eq_none.2 hs
  | setdir | drvl | drvh | addr | rda | rdd | stba | wait | pdelay => cases hu; rfl
  | _ => cases hu

theorem exec_settled_fault (hu : plainUop i = some u) (hs : s.settle.short = false) (h : exec i s = .next t) :
    t.fault = s.fault := by
  cases (exec_plainUop_ok s hu (check_of_plainUop hu hs)).symm.trans h
  exact (u.effect_keeps s).fault

end

/-- Settles O23: what a micro-operation makes of the bus is idempotent, and a command is its micro-operation or a
fault. -/
theorem primitivesIdempotent : Obligations.PrimitivesIdempotent := by
  unfold Obligations.PrimitivesIdempotent
  refine ⟨fun i s t t' hi h h' => ?_, fun i s t t' x hi h ht h' => ?_, fun u s => ?_⟩
  · obtain ⟨u, hu⟩ := plainUop_of_writesBus hi
    exact exec_twice_busFacing hu h h'
  · obtain ⟨u, hu⟩ := plainUop_of_writesBus hi
    exact ⟨exec_twice_settled_busFacing hu h ht h', fun hx => (exec_settled_fault hu hx h').trans ht⟩
  · exact busFacing_effect_of_eq rfl (u.effect_keeps s).busMask

/-! ### Events (R136) -/

/-- Settles O25: a primitive command is one micro-operation, and what no micro-operation changes is left alone by the
PHASE, CP, RESP and FAULT that go with it. -/
theorem primitivesAppendNoAbstractEvent : Obligations.PrimitivesAppendNoAbstractEvent := by
  unfold Obligations.PrimitivesAppendNoAbstractEvent
  intro i s t hi h
  rcases exec_primitive_cases hi h with ⟨k, rfl⟩ | ⟨-, rfl⟩ | ⟨u, -, rfl⟩
  · exact ⟨(UopKeeps.refl s).ev, rfl, rfl, rfl⟩
  · exact ⟨(Uop.samp.effect_keeps s).ev, rfl, rfl, rfl⟩
  · have hkeep := u.effect_keeps s
    exact ⟨hkeep.ev, hkeep.ioReg, hkeep.lastRead, hkeep.lastValid⟩

/-! ### Direction, latch and sample (R121 to R124) -/

/-- Settles O13: SETDIR requires nothing, and its effect is the two writes one after the other. -/
theorem setdirResult : Obligations.SetdirResult := by
  unfold Obligations.SetdirResult
  refine ⟨rfl, rfl, fun s => ⟨?_, ?_⟩⟩
  · rw [List.append_cons]
    exact exec_plainUop_ok s (u := .setdir false) rfl rfl
  · rw [List.append_cons]
    exact exec_plainUop_ok s (u := .setdir true) rfl rfl

/-- Under the constant of BUS_MASK a write of BUS_MPIN latches its bus field (R28, R29). -/
theorem mpinWrite_of_mask {s : State} (h : s.busMask = Config.busMaskReset) (w : Word) :
    s.mpinWrite w = s.writeLatch (busField w) := by
  rw [State.mpinWrite, h, busField_busMaskReset, maskedLatch_zero]

/-- Settles O14: DRVL and DRVH put their byte in the bus field, and the constant mask lets all of it through. -/
theorem latchWriteResults : Obligations.LatchWriteResults := by
  unfold Obligations.LatchWriteResults
  intro v s hmask
  refine ⟨rfl, rfl, ?_, ?_⟩
  · rw [exec_plainUop_ok s (u := .drvl v) rfl rfl, Uop.effect_drvl, mpinWrite_of_mask hmask, busField_shifted]
    rfl
  · rw [exec_plainUop_ok s (u := .drvh v) rfl rfl, Uop.effect_drvh, mpinWrite_of_mask hmask, busField_unshifted]
    rfl

/-- SAMP looks at the direction first (R124). -/
theorem samp_check_driving {s : State} (h : s.busOe = true) : Uop.samp.check s = some .sampleWhileDriving := if_pos h

theorem samp_check_listening {s : State} (h : s.busOe = false) : Uop.samp.check s = s.settleCheck :=
  if_neg (Bool.eq_false_iff.1 h)

/-- Settles O15: the direction is checked before SETTLE, and a sample that passes both sees the environment's byte. -/
theorem sampResult : Obligations.SampResult := by
  unfold Obligations.SampResult
  refine ⟨rfl, fun s hmask => ⟨fun hoe hs => ?_, fun hoe => ?_, fun hoe hs => ?_⟩⟩
  · have hbyte : s.sampleByte = s.env.busAnswer := by rw [sampleByte_of_mask s hmask, busRead_listening s hoe]
    rw [exec_samp_ok s ((samp_check_listening hoe).trans (settleCheck_eq_none.2 hs)), State.takeSample, hbyte]
    rfl
  · exact exec_samp_raised s (samp_check_driving hoe)
  · exact exec_samp_raised s ((samp_check_listening hoe).trans (settleCheck_of_short hs))

/-! ### Address and strobes (R125 to R131) -/

/-- Settles O16: ADDR requires nothing, and its effect is one pin write. -/
theorem addrResult : Obligations.AddrResult := by
  unfold Obligations.AddrResult
  exact ⟨rfl, rfl, fun a s => exec_plainUop_ok s (u := .addr a) rfl rfl⟩

/-- Settles O17: neither read strobe requires anything, and the effect of each is one pin write. -/
theorem readStrobeResults : Obligations.ReadStrobeResults := by
  unfold Obligations.ReadStrobeResults
  exact ⟨rfl, rfl, fun s => ⟨exec_plainUop_ok s (u := .rda) rfl rfl, exec_plainUop_ok s (u := .rdd) rfl rfl⟩⟩

/-- Settles O18: each write strobe is one pin write where SETTLE is long enough, and a fault where it is not. -/
theorem writeStrobeResults : Obligations.WriteStrobeResults := by
  unfold Obligations.WriteStrobeResults
  refine ⟨rfl, rfl, fun s => ⟨fun hs => ?_, fun hs => ?_⟩⟩
  · have hc : s.settleCheck = none := settleCheck_eq_none.2 hs
    exact ⟨exec_plainUop_ok s (u := .wra) rfl hc, exec_plainUop_ok s (u := .wrd) rfl hc⟩
  · have hc := settleCheck_of_short hs
    exact ⟨exec_plainUop_raised s (u := .wra) rfl hc, exec_plainUop_raised s (u := .wrd) rfl hc⟩

/-- Settles O19: STBA requires nothing, STBD that SETTLE is long enough. -/
theorem latchStrobeResults : Obligations.LatchStrobeResults := by
  unfold Obligations.LatchStrobeResults
  refine ⟨rfl, rfl, fun s => ⟨exec_plainUop_ok s (u := .stba) rfl rfl, fun hs => ?_, fun hs => ?_⟩⟩
  · exact exec_plainUop_ok s (u := .stbd) rfl (settleCheck_eq_none.2 hs)
  · exact exec_plainUop_raised s (u := .stbd) rfl (settleCheck_of_short hs)

/-! ### Waits (R132, R133) -/

/-- Settles O20: neither wait requires anything, and the SETTLE it leaves is the sum of R40. -/
theorem waitResults : Obligations.WaitResults := by
  unfold Obligations.WaitResults
  intro n s t ht
  obtain rfl : t = s.settle.add n.toNat := by rw [ht]; cases s.settle <;> rfl
  exact ⟨rfl, rfl, exec_plainUop_ok s (u := .wait n.toNat) rfl rfl,
    exec_plainUop_ok s (u := .pdelay n.toNat) rfl rfl⟩

end Sys2Proof.Machine
end

section
/-!
PROOFS. The family of 41_lcd_transactions.md: what each LCD transaction leaves where it completes and where it raises
(rules R151 to R160), the address-select line (rule R161), how much a transaction appends to EV (rule R162), and the
faults a transaction can raise (rule R150).
-/
namespace Sys2Proof.Machine

/-! ### Writes (R151 to R157) -/

theorem byteImm_eq_append (b : Byte) : byteImm b = 0#8 ++ b := by
  rw [byteImm, BitVec.setWidth_eq_append (by decide)]
  rfl

/-- Settles O27: `execLcmd_eq` is the run of the micro-operations, and the constant mask lets every latch write through. -/
theorem lcmdResult : Obligations.LcmdResult := by
  unfold Obligations.LcmdResult
  intro cmd s hmask
  refine ⟨by rw [← byteImm_eq_append]; rfl, ?_⟩
  rw [exec_lcmd, execLcmd_eq]
  refine congrArg Host.Outcome.next ?_
  apply State.ext <;> simp [commandEvents, deasserted, Pins.set, hmask]

/-- A fast-path command, by mnemonic, in the phase it requires (R152 to R157). -/
theorem exec_fastData_eq {i : Instr} {vs : List Half} {s : State} (hi : fastData i = some vs)
    (hmask : s.busMask = Config.busMaskReset) (hp : vs = [] ∨ s.phase = .dataPhase) :
    exec i s = .next { vs.foldl afterDataWrite s with cp := s.cp + i.words } := by
  rw [exec_fastData s hi, fastWrite_eq vs i.words hmask hp, Progress.outcome_ok]

/-- A fast-path command with data, by mnemonic, in another phase (R152, R231). -/
theorem exec_fastData_raised {i : Instr} {vs : List Half} {s : State} (hi : fastData i = some vs) (hv : vs ≠ [])
    (hp : s.phase ≠ .dataPhase) : exec i s = .next (s.raise (.phaseViolation s.phase)) := by
  rw [exec_fastData s hi, fastWrite_raised i.words hv hp, Progress.outcome_raised]

/-- Settles O28: each of the three commands is the fast path with one word. -/
theorem dataWordResult : Obligations.DataWordResult := by
  unfold Obligations.DataWordResult
  intro v s hmask i hi
  have hdata : fastData i = some [v] ∧ i.words = 1 := by
    simp only [List.mem_cons, List.not_mem_nil, or_false] at hi
    rcases hi with rfl | rfl | rfl <;> exact ⟨rfl, rfl⟩
  obtain ⟨hvs, hwords⟩ := hdata
  refine ⟨fun hp => ?_, exec_fastData_raised hvs (List.cons_ne_nil v [])⟩
  rw [exec_fastData_eq hvs hmask (.inr hp), hwords]
  rfl

/-- Settles O29: each of the three commands is the fast path with its own list of words; a count of 0 is no word. -/
theorem arrayWriteResult : Obligations.ArrayWriteResult := by
  unfold Obligations.ArrayWriteResult
  refine fun s hmask => ⟨fun color count hp => ?_, fun es hp => ⟨?_, ?_⟩, fun i vs => exec_fastData_raised⟩
  · exact exec_fastData_eq (i := .lpixr color count) rfl hmask (hp.imp_left fun h0 => by rw [h0, List.replicate_zero])
  · exact exec_fastData_eq (i := .lpixa es) rfl hmask hp
  · exact exec_fastData_eq (i := .lwrda es) rfl hmask hp

/-! ### Reads (R158 to R160) -/

theorem readable_of_dataPhase_or_readPhase {p : Phase} (h : p = .dataPhase ∨ p = .readPhase) : p.readable = true := by
  rcases h with rfl | rfl <;> rfl

/-- An LCD read with waits of W_SETUP at least: complete in the two phases it requires, a fault in Idle (R158, R159). -/
theorem readTransaction_outcome (profile : Profile) (kind : WaitKind) {nHi nLo : Nat} {s : State}
    (hmask : s.busMask = Config.busMaskReset) (hHi : Config.wSetup ≤ nHi) (hLo : Config.wSetup ≤ nLo) :
    ((s.phase = .dataPhase ∨ s.phase = .readPhase) →
      (readTransaction profile (waitUop kind nHi) (waitUop kind nLo) s).outcome =
        .next (afterRead profile kind nHi nLo s)) ∧
    (s.phase = .idle →
      (readTransaction profile (waitUop kind nHi) (waitUop kind nLo) s).outcome =
        .next (s.raise (.phaseViolation .idle))) := by
  refine ⟨fun hp => ?_, fun hp => ?_⟩
  · rw [readTransaction_eq profile kind hmask (readable_of_dataPhase_or_readPhase hp) hHi hLo, Progress.outcome_ok]
  · rw [readTransaction_raised _ _ _ (by rw [hp]; rfl), Progress.outcome_raised, hp]

/-- Settles O30: the read transaction with the spins of the short profile. -/
theorem lrdidResult : Obligations.LrdidResult := by
  unfold Obligations.LrdidResult
  refine ⟨rfl, fun s hmask ⟨hIdHi, hIdLo, _, _⟩ => ?_⟩
  exact readTransaction_outcome .id .spin hmask hIdHi hIdLo

/-- Settles O31: the read transaction with the polled delays of the long profile. -/
theorem lrdfmResult : Obligations.LrdfmResult := by
  unfold Obligations.LrdfmResult
  refine ⟨rfl, fun s hmask ⟨_, _, hFmHi, hFmLo⟩ => ?_⟩
  exact readTransaction_outcome .fm .polled hmask hFmHi hFmLo

/-- A clock that gives the shorter time three cycles gives a time longer by half more cycles (R272). -/
theorem cyclesOf_lt_cyclesOf {p : Params} {short long : Nat} (hlong : 3 * short ≤ 2 * long)
    (h : Config.wSetup ≤ cyclesOf p short) : cyclesOf p short < cyclesOf p long := by
  have hprod : 3 * (short * p.fClk) ≤ 2 * (long * p.fClk) := by
    rw [← Nat.mul_assoc, ← Nat.mul_assoc]
    exact Nat.mul_le_mul_right p.fClk hlong
  simp only [Config.wSetup, cyclesOf] at h ⊢
  omega

/-- What a read leaves beside EV and SETTLE does not depend on its waits or its profile (R160). -/
theorem afterRead_agree (profile profile' : Profile) (kind kind' : WaitKind) (nHi nLo nHi' nLo' : Nat) (s : State) :
    let t := afterRead profile kind nHi nLo s
    let u := afterRead profile' kind' nHi' nLo' s
    t.resp = u.resp ∧ busFacing t = busFacing u ∧ t.phase = u.phase ∧ t.env = u.env ∧ t.cp = u.cp :=
  ⟨rfl, rfl, rfl, rfl, rfl⟩

/-- Settles O32: both commands are one read transaction, and only its waits and its profile tag tell them apart. -/
theorem readProfilesAgree : Obligations.ReadProfilesAgree := by
  unfold Obligations.ReadProfilesAgree
  refine ⟨fun s t u hwaits hmask hp ht hu => ?_, fun p ⟨hIdHi, hIdLo, _, _⟩ => ⟨?_, ?_⟩, respPair_toNat⟩
  · cases ((lrdidResult.2 s hmask hwaits).1 hp).symm.trans ht
    cases ((lrdfmResult.2 s hmask hwaits).1 hp).symm.trans hu
    obtain ⟨hresp, hbus, hphase, henv, hcp⟩ := afterRead_agree .id .fm .spin .polled (wIdHi s.cfg) (wIdLo s.cfg)
      (wFmHi s.cfg) (wFmLo s.cfg) s
    exact ⟨hresp, hbus, hphase, henv, hcp, s.env.busAnswer, s.env.busNext.busAnswer, rfl, rfl, rfl⟩
  · exact (cyclesOf_lt_cyclesOf (by decide) hIdHi).ne'
  · exact (cyclesOf_lt_cyclesOf (by decide) hIdLo).ne'

/-! ### The address-select line (R161) -/

/-- From `s` to `t` no write of P_ADDR has been appended to EV. -/
def SameAddrWrites (s t : State) : Prop := addrWrites t.ev = addrWrites s.ev

theorem SameAddrWrites.trans {s t u : State} (h : SameAddrWrites s t) (k : SameAddrWrites t u) : SameAddrWrites s u :=
  Eq.trans k h

/-- ADDR is the one micro-operation that writes P_ADDR (R121 to R133). -/
theorem Uop.effect_sameAddrWrites {u : Uop} (hu : ∀ a, u ≠ .addr a) (s : State) : SameAddrWrites s (u.effect s) := by
  cases u with
  | addr a => exact absurd rfl (hu a)
  | setdir d => cases d <;> simp [SameAddrWrites]
  | _ => simp [SameAddrWrites]

/-- A relation the micro-operations of a sequence keep, the sequence keeps as far as it runs. -/
theorem runUops_last_rel_of_mem (R : State → State → Prop) (hrefl : ∀ s, R s s)
    (htrans : ∀ {a b c}, R a b → R b c → R a c) (us : List Uop) (hu : ∀ u ∈ us, ∀ s, R s (u.effect s)) (s : State) :
    R s (runUops us s).last := by
  induction us generalizing s with
  | nil => exact hrefl s
  | cons u us ih =>
    obtain ⟨hhead, htail⟩ := List.forall_mem_cons.1 hu
    cases h : u.check s with
    | none => rw [runUops_cons_ok _ h]; exact htrans (hhead s) (ih htail _)
    | some k => rw [runUops_cons_raised _ h]; exact hrefl s

theorem runUops_sameAddrWrites {us : List Uop} (hus : ∀ u ∈ us, ∀ a, u ≠ .addr a) (s : State) :
    SameAddrWrites s (runUops us s).last :=
  runUops_last_rel_of_mem SameAddrWrites (fun _ => rfl) SameAddrWrites.trans us
    (fun u hu => Uop.effect_sameAddrWrites (hus u hu)) s

theorem SameAddrWrites.andThen {s : State} {p : Progress} {f : State → Progress} (h : SameAddrWrites s p.last)
    (hf : ∀ t, SameAddrWrites t (f t).last) : SameAddrWrites s (p.andThen f).last :=
  andThen_last_rel SameAddrWrites SameAddrWrites.trans h hf

theorem guardWith_last (s : State) (c : Bool) (k : FaultKind) : (s.guardWith c k).last = s := by
  cases c <;> rfl

theorem guardWith_sameAddrWrites (s : State) (c : Bool) (k : FaultKind) : SameAddrWrites s (s.guardWith c k).last := by
  rw [guardWith_last]
  rfl

theorem dataWrite_sameAddrWrites (v : Half) (s : State) : SameAddrWrites s (dataWrite v s).last :=
  (runUops_sameAddrWrites (by simp [writePulse]) s).andThen fun t => by simp [SameAddrWrites]

theorem dataWrites_sameAddrWrites (vs : List Half) (s : State) : SameAddrWrites s (dataWrites vs s).last := by
  induction vs generalizing s with
  | nil => rfl
  | cons v vs ih => exact (dataWrite_sameAddrWrites v s).andThen ih

theorem fastWrite_sameAddrWrites (vs : List Half) (len : Nat) (s : State) :
    SameAddrWrites s (fastWrite vs len s).last := by
  have hcheck : SameAddrWrites s (if vs.isEmpty then Progress.ok s else requireDataPhase s).last := by
    split
    · rfl
    · exact guardWith_sameAddrWrites s _ _
  exact hcheck.andThen fun t => (dataWrites_sameAddrWrites vs t).andThen fun _ => rfl

theorem waitUop_ne_addr (kind : WaitKind) (n : Nat) (a : Level) : waitUop kind n ≠ .addr a := by
  cases kind <;> nofun

/-- An LCD read, also one that a check stops midway, writes no P_ADDR (R158, R159). -/
theorem readTransaction_sameAddrWrites (profile : Profile) (kind : WaitKind) (nHi nLo : Nat) (s : State) :
    SameAddrWrites s (readTransaction profile (waitUop kind nHi) (waitUop kind nLo) s).last :=
  (guardWith_sameAddrWrites s _ _).andThen fun s0 =>
  (runUops_sameAddrWrites (by simp) s0).andThen fun s1 =>
  SameAddrWrites.andThen (runUops_sameAddrWrites (by simp [waitUop_ne_addr]) (s1.setPhase .readPhase)) fun s2 =>
  (runUops_sameAddrWrites (by simp [waitUop_ne_addr]) s2).andThen fun s3 =>
  (runUops_sameAddrWrites (by simp) s3).andThen fun s4 => by simp [SameAddrWrites]

/-- The events a command appends hold the writes of P_ADDR that EV has gained. -/
theorem exec_addrWrites {i : Instr} {s t : State} {as : List (Level × Level)} (h : exec i s = .next t)
    (ht : addrWrites t.ev = addrWrites s.ev ++ as) : ∃ es, t.ev = s.ev ++ es ∧ addrWrites es = as := by
  obtain ⟨⟨es, hev⟩, -⟩ := exec_history h
  rw [hev, addrWrites_append] at ht
  exact ⟨es, hev, List.append_cancel_left ht⟩

/-- A command that writes no P_ADDR as far as it runs appends no such event, completed or not: a fault entry appends
nothing (R232). -/
theorem exec_no_addrWrites {i : Instr} {s t : State} {p : Progress} (hi : exec i s = p.outcome)
    (hp : SameAddrWrites s p.last) (h : exec i s = .next t) : ∃ es, t.ev = s.ev ++ es ∧ addrWrites es = [] := by
  refine exec_addrWrites h ?_
  rw [List.append_nil]
  cases p with
  | ok u => cases hi.symm.trans h; exact hp
  | raised k u => cases hi.symm.trans h; exact hp

/-- Settles O33: only LCMD runs ADDR, once with each level. -/
theorem addressLineLaw : Obligations.AddressLineLaw := by
  unfold Obligations.AddressLineLaw
  refine ⟨fun i vs s t hi h => ?_, fun i s t hi h => ?_, fun cmd s t h => exec_addrWrites h ?_⟩
  · exact exec_no_addrWrites (exec_fastData s hi) (fastWrite_sameAddrWrites vs _ s) h
  · rcases hi with rfl | rfl
    · exact exec_no_addrWrites (exec_lrdid s) (readTransaction_sameAddrWrites _ _ _ _ s) h
    · exact exec_no_addrWrites (exec_lrdfm s) (readTransaction_sameAddrWrites _ _ _ _ s) h
  · cases (execLcmd_eq cmd s).symm.trans h
    simp

/-! ### Events and wait cycles (R162, R273) -/

/-- From `s` to `t` EV has grown by `events` events with `cycles` wait cycles in all. -/
structure Grows (events cycles : Nat) (s t : State) : Prop where
  length : t.ev.length = s.ev.length + events
  waits : waitTotal t.ev = waitTotal s.ev + cycles

theorem Grows.of_append {s t : State} {es : List Event} (h : t.ev = s.ev ++ es) :
    Grows es.length (waitTotal es) s t :=
  ⟨by rw [h, List.length_append], by rw [h, waitTotal_append]⟩

/-- How much EV has grown is the size of the events appended. -/
theorem Grows.sizes {n c : Nat} {s t : State} {es : List Event} (h : Grows n c s t) (hes : t.ev = s.ev ++ es) :
    es.length = n ∧ waitTotal es = c := by
  obtain ⟨hlength, hwaits⟩ := h
  rw [hes, List.length_append] at hlength
  rw [hes, waitTotal_append] at hwaits
  omega

theorem grows_afterDataWrite (s : State) (v : Half) : Grows 11 12 s (afterDataWrite s v) :=
  Grows.of_append (es := dataWriteEvents s.outLatch s.pins.lcdWr v) rfl

theorem grows_foldl_afterDataWrite (vs : List Half) (s : State) :
    Grows (11 * vs.length) (12 * vs.length) s (vs.foldl afterDataWrite s) := by
  induction vs generalizing s with
  | nil => exact ⟨rfl, rfl⟩
  | cons v vs ih =>
    obtain ⟨hlength, hwaits⟩ := grows_afterDataWrite s v
    obtain ⟨hlengths, hwaitss⟩ := ih (afterDataWrite s v)
    constructor <;> rw [List.foldl_cons, List.length_cons] <;> omega

theorem grows_afterRead (profile : Profile) (kind : WaitKind) (nHi nLo : Nat) (s : State) :
    Grows 9 (nHi + nLo) s (afterRead profile kind nHi nLo s) := by
  constructor <;> simp [afterRead, readEvents, Event.waitCycles]

theorem grows_lcmd {cmd : Byte} {s t : State} (h : exec (.lcmd cmd) s = .next t) : Grows 15 12 s t := by
  cases (execLcmd_eq cmd s).symm.trans h
  constructor <;> simp [Event.waitCycles]

theorem grows_iord {s t : State} (h : exec .iord s = .next t) : Grows 8 3 s t := by
  cases (execIord_eq s).symm.trans h
  constructor <;> simp [iordSampled, Event.waitCycles]

/-- TCFG without a fault: its byte was legal. -/
theorem grows_tcfg {b : Byte} {s t : State} (h : exec (.tcfg b) s = .next t) (ht : t.fault = none) : Grows 9 6 s t := by
  cases hb : legalTouchByte s.cfg b with
  | false =>
    cases (execTcfg_raised hb).symm.trans h
    exact absurd ht (raise_fault_ne_none s _)
  | true =>
    cases (execTcfg_eq hb).symm.trans h
    constructor <;> simp [pushLastRead_eq, Event.waitCycles, Config.wSetup]

/-- Settles O34: the size of what each transaction appends, taken from where it comes to. -/
theorem transactionSizes : Obligations.TransactionSizes := by
  unfold Obligations.TransactionSizes
  intro s hmask hwaits hp i t h ht
  obtain ⟨⟨es, hes⟩, -⟩ := exec_history h
  refine ⟨es, hes, ?_, ?_, ?_, ?_, ?_, ?_⟩
  · rintro cmd rfl
    exact (grows_lcmd h).sizes hes
  · intro vs hvs
    cases (exec_fastData_eq hvs hmask (.inr hp)).symm.trans h
    exact (grows_foldl_afterDataWrite vs s).sizes hes
  · rintro rfl
    cases ((lrdidResult.2 s hmask hwaits).1 (.inl hp)).symm.trans h
    exact (grows_afterRead _ _ _ _ s).sizes hes
  · rintro rfl
    cases ((lrdfmResult.2 s hmask hwaits).1 (.inl hp)).symm.trans h
    exact (grows_afterRead _ _ _ _ s).sizes hes
  · rintro rfl
    exact (grows_iord h).sizes hes
  · rintro b rfl
    exact (grows_tcfg h ht).sizes hes

/-! ### The faults of a transaction (R150) -/

/-- Faults of the checks (6) and (7) of R98, which a transaction makes before its first micro-operation. -/
def FaultKind.isEntryCheck : FaultKind → Prop
  | .phaseViolation _ | .illegalTouchConfig _ => True
  | .illegalCommand _ | .lengthMismatch _ | .truncatedCommand _ | .sampleWhileDriving | .settleViolation _ => False

/-- From `s` a command completes with FAULT as it was, or it has stopped at an entry check with nothing done. -/
def Progress.StopsAtEntry (s : State) : Progress → Prop
  | .ok t => t.fault = s.fault
  | .raised k t => t = s ∧ k.isEntryCheck

theorem guardWith_stopsAtEntry (s : State) (c : Bool) {k : FaultKind} (hk : k.isEntryCheck) :
    (s.guardWith c k).StopsAtEntry s := by
  cases c
  · exact ⟨rfl, hk⟩
  · exact rfl

/-- An entry check, then a part that always completes. -/
theorem Progress.StopsAtEntry.andThen {s : State} {p : Progress} {f : State → Progress} (h : p.StopsAtEntry s)
    (hf : ∀ t, ∃ u, f t = .ok u ∧ u.fault = t.fault) : (p.andThen f).StopsAtEntry s := by
  cases p with
  | ok t =>
    obtain ⟨u, hu, hfault⟩ := hf t
    rw [Progress.andThen_ok, hu]
    exact hfault.trans h
  | raised k t => exact h

/-- Data writes never fail, so a fast-path command fails in its phase check alone, whatever BUS_MASK holds. -/
theorem fastWrite_stopsAtEntry (vs : List Half) (len : Nat) (s : State) : (fastWrite vs len s).StopsAtEntry s := by
  have hcheck : (if vs.isEmpty then Progress.ok s else requireDataPhase s).StopsAtEntry s := by
    split
    · exact rfl
    · exact guardWith_stopsAtEntry s _ trivial
  refine hcheck.andThen fun t => ?_
  obtain ⟨u, hu⟩ := dataWrites_ok vs t
  have hreach := reaches_dataWrites vs t
  rw [hu] at hreach
  exact ⟨u.advance len, by rw [hu, Progress.andThen_ok], hreach.fault⟩

/-- With waits of W_SETUP at least an LCD read fails in its phase check alone, whatever BUS_MASK holds. -/
theorem readTransaction_stopsAtEntry (profile : Profile) (kind : WaitKind) {nHi nLo : Nat} (s : State)
    (hHi : Config.wSetup ≤ nHi) (hLo : Config.wSetup ≤ nLo) :
    (readTransaction profile (waitUop kind nHi) (waitUop kind nLo) s).StopsAtEntry s := by
  cases hp : s.phase.readable with
  | false =>
    rw [readTransaction_raised _ _ _ hp]
    exact ⟨rfl, trivial⟩
  | true =>
    have hreach := reaches_readTransaction profile (waitUop kind nHi) (waitUop kind nLo) s
    rw [readTransaction_ok profile kind hp hHi hLo] at hreach ⊢
    exact hreach.fault

theorem execTcfg_stopsAtEntry (b : Byte) (s : State) :
    ∃ p : Progress, exec (.tcfg b) s = p.outcome ∧ p.StopsAtEntry s := by
  cases hb : legalTouchByte s.cfg b with
  | false => exact ⟨.raised _ s, execTcfg_raised hb, rfl, trivial⟩
  | true => exact ⟨.ok _, execTcfg_eq hb, by simp [Progress.StopsAtEntry, pushLastRead_eq]⟩

/-- Every transaction, by the shared operation that it runs: its settle requirements are all met (R150 step (6)). -/
theorem exec_stopsAtEntry {i : Instr} {s : State} (hi : isTransaction i = true) (hwaits : waitsLegal s.cfg) :
    ∃ p : Progress, exec i s = p.outcome ∧ p.StopsAtEntry s := by
  obtain ⟨hIdHi, hIdLo, hFmHi, hFmLo⟩ := hwaits
  cases i with
  | lcmd cmd => exact ⟨.ok _, execLcmd_eq cmd s, by simp [Progress.StopsAtEntry]⟩
  | ldat | lpix | lpixr | lpixa | lwrd | lwrda => exact ⟨_, exec_fastData s rfl, fastWrite_stopsAtEntry _ _ s⟩
  | lrdid => exact ⟨_, exec_lrdid s, readTransaction_stopsAtEntry _ _ s hIdHi hIdLo⟩
  | lrdfm => exact ⟨_, exec_lrdfm s, readTransaction_stopsAtEntry _ _ s hFmHi hFmLo⟩
  | iord => exact ⟨.ok _, execIord_eq s, by simp [Progress.StopsAtEntry, iordSampled]⟩
  | tcfg b => exact execTcfg_stopsAtEntry b s
  | _ => cases hi

/-- Settles O35: what a transaction raises, it raises in an entry check, and no entry check is about SETTLE or BUS_OE. -/
theorem transactionsMeetSettleRule : Obligations.TransactionsMeetSettleRule := by
  unfold Obligations.TransactionsMeetSettleRule
  intro i s t r hi hwaits hfault h ht
  have hentry : r.kind.isEntryCheck := by
    obtain ⟨p, hp, hstops⟩ := exec_stopsAtEntry hi hwaits
    cases p with
    | ok u =>
      cases hp.symm.trans h
      exact nomatch (ht.symm.trans hstops).trans hfault
    | raised k u =>
      obtain ⟨rfl, hk⟩ := hstops
      cases hp.symm.trans h
      rw [raise_of_empty hfault] at ht
      cases ht
      exact hk
  constructor
  · intro he
    rwa [he] at hentry
  · intro x he
    rwa [he] at hentry

end Sys2Proof.Machine
end

section
/-!
PROOFS. The family of 42_touch_input.md: what IORD, TCFG and ROTA leave (rules R181 to R183), and which commands write
LAST_READ, LAST_VALID and IO_REG (rules R184 and R185).
-/
namespace Sys2Proof.Machine

/-! ### The three commands (R181 to R183) -/

/-- Under the constant of BUS_MASK the byte that IORD samples is the environment's next answer (R181). -/
theorem iordSampled_sampleByte {s : State} (h : s.busMask = Config.busMaskReset) :
    (iordSampled s).sampleByte = s.env.busAnswer := by
  rw [sampleByte_of_mask _ (by simp [iordSampled, h]), busRead_listening _ (by simp [iordSampled])]
  simp [iordSampled]

/-- Settles O36: `execIord_eq` is the run of the micro-operations, and its sample sees the environment's byte. -/
theorem iordResult : Obligations.IordResult := by
  unfold Obligations.IordResult
  refine ⟨rfl, fun s hmask => ?_⟩
  rw [exec_iord, execIord_eq, Uop.effect_samp, State.takeSample, iordSampled_sampleByte hmask]
  refine congrArg Host.Outcome.next ?_
  apply State.ext <;> simp [iordSampled, Pins.set, respByte]

/-- Settles O37: a byte that passes the operand check is latched as it is under the constant mask; any other raises. -/
theorem tcfgResult : Obligations.TcfgResult := by
  unfold Obligations.TcfgResult
  refine fun b s hmask => ⟨by rw [← byteImm_eq_append]; rfl, fun hb => ?_, fun hb => ?_⟩
  · rw [exec_tcfg, execTcfg_eq (legalTouchByte_iff.2 hb), pushLastRead_eq]
    refine congrArg Host.Outcome.next ?_
    apply State.ext <;> simp [Pins.set, hmask]
  · have hillegal : legalTouchByte s.cfg b = false := by
      rw [← Bool.not_eq_true, legalTouchByte_iff, not_exists]
      exact hb
    rw [exec_tcfg, execTcfg_raised hillegal]

/-- Settles O38: ROTA is one read of the environment's level, its response and the advance of CP. -/
theorem rotaResult : Obligations.RotaResult := by
  unfold Obligations.RotaResult
  exact ⟨rfl, fun s => exec_rota s⟩

/-! ### Which commands write the touch registers (R184, R185)

LAST_READ, LAST_VALID, IO_REG and the IoWrite events of EV are seen through one view, which every command keeps but
IORD and TCFG. -/

/-- An IoWrite event, as the pair of its address level and its byte (R185). -/
def Event.ioWritten (e : Event) : Option (Level × Byte) :=
  match e with
  | .ioWrite a v => some (a, v)
  | .pinW _ _ _ | .oeW _ _ | .latchW _ _ | .wait _ _ | .samp _ | .rotA _ | .lcdWrite _ _ _ | .lcdRead _ _ _
  | .ioRead _ => none

/-- The IoWrite events in a list (R185). -/
def ioWrites (es : List Event) : List (Level × Byte) := es.filterMap Event.ioWritten

theorem ioWrites_append (es fs : List Event) : ioWrites (es ++ fs) = ioWrites es ++ ioWrites fs :=
  List.filterMap_append

theorem mem_ioWrites {es : List Event} {a : Level} {v : Byte} : (a, v) ∈ ioWrites es ↔ .ioWrite a v ∈ es := by
  rw [ioWrites, List.mem_filterMap]
  constructor
  · rintro ⟨e, he, hv⟩
    cases e with
    | ioWrite a' v' => cases hv; exact he
    | _ => cases hv
  · exact fun h => ⟨_, h, rfl⟩

/-- An IoWrite event is an abstract one (R150). -/
theorem ioWrites_of_no_abstract {es : List Event} (h : ∀ e ∈ es, e.isAbstract = false) : ioWrites es = [] := by
  refine List.filterMap_eq_nil_iff.2 fun e he => ?_
  have habs := h e he
  cases e with
  | ioWrite a v => cases habs
  | _ => rfl

/-- The registers of the touch and input unit, and the writes of the I/O register so far (R31, R32, R39). -/
structure TouchView where
  lastRead : Word
  lastValid : Level
  ioReg : Byte
  ioWrites : List (Level × Byte)

/-- The touch view of a state. -/
def State.touchView (s : State) : TouchView := ⟨s.lastRead, s.lastValid, s.ioReg, ioWrites s.ev⟩

section
variable {s t : State}

theorem touchView_of_no_abstract {es : List Event} (hev : t.ev = s.ev ++ es) (habs : ∀ e ∈ es, e.isAbstract = false)
    (hio : t.ioReg = s.ioReg) (hread : t.lastRead = s.lastRead) (hvalid : t.lastValid = s.lastValid) :
    t.touchView = s.touchView := by
  simp [State.touchView, hev, ioWrites_append, ioWrites_of_no_abstract habs, hio, hread, hvalid]

theorem UopKeeps.touchView (h : UopKeeps s t) : t.touchView = s.touchView := by
  obtain ⟨es, hev, habs⟩ := h.ev
  exact touchView_of_no_abstract hev habs h.ioReg h.lastRead h.lastValid

/-- Any event but IoWrite is outside the view. -/
theorem touchView_emit (s : State) {e : Event} (he : e.ioWritten = none) : (s.emit e).touchView = s.touchView := by
  simp [State.touchView, ioWrites, he]

/-- A command that has come, or failed, where the touch view is that of `s`. -/
def Progress.KeepsTouch (s : State) (p : Progress) : Prop := p.last.touchView = s.touchView

theorem Progress.KeepsTouch.andThen {p : Progress} {f : State → Progress} (h : p.KeepsTouch s)
    (hf : ∀ t, (f t).KeepsTouch t) : (p.andThen f).KeepsTouch s :=
  andThen_last_rel (fun a b => b.touchView = a.touchView) (fun hab hbc => hbc.trans hab) h hf

/-- The last part of a command. -/
theorem Progress.KeepsTouch.finish {p : Progress} {f : State → State} (h : p.KeepsTouch s)
    (hf : ∀ t, (f t).touchView = t.touchView) : (p.andThen fun t => .ok (f t)).KeepsTouch s :=
  h.andThen hf

theorem touchView_of_outcome {p : Progress} (ht : p.outcome = .next t) (h : p.KeepsTouch s) :
    t.touchView = s.touchView := by
  cases p with
  | ok u => cases ht; exact h
  | raised k u => cases ht; exact h

theorem guardWith_keepsTouch (s : State) (c : Bool) (k : FaultKind) : (s.guardWith c k).KeepsTouch s := by
  rw [Progress.KeepsTouch, guardWith_last]

theorem runUops_keepsTouch (us : List Uop) (s : State) : (runUops us s).KeepsTouch s := (runUops_keeps us s).touchView

theorem dataWrites_keepsTouch (vs : List Half) (s : State) : (dataWrites vs s).KeepsTouch s := by
  induction vs generalizing s with
  | nil => exact rfl
  | cons v vs ih => exact ((runUops_keepsTouch _ s).finish fun t => touchView_emit t rfl).andThen ih

theorem fastWrite_keepsTouch (vs : List Half) (len : Nat) (s : State) : (fastWrite vs len s).KeepsTouch s := by
  have hcheck : (if vs.isEmpty then Progress.ok s else requireDataPhase s).KeepsTouch s := by
    split
    · exact rfl
    · exact guardWith_keepsTouch s _ _
  exact hcheck.andThen fun t => (dataWrites_keepsTouch vs t).finish fun _ => rfl

theorem readTransaction_keepsTouch (profile : Profile) (waitHi waitLo : Uop) (s : State) :
    (readTransaction profile waitHi waitLo s).KeepsTouch s :=
  (guardWith_keepsTouch s _ _).andThen fun s0 =>
  (runUops_keepsTouch _ s0).andThen fun s1 =>
  Progress.KeepsTouch.andThen (runUops_keepsTouch _ (s1.setPhase .readPhase)) fun s2 =>
  (runUops_keepsTouch _ s2).andThen fun s3 =>
  (runUops_keepsTouch _ s3).finish fun s4 => touchView_emit s4 rfl

theorem execLcmd_touchView {cmd : Byte} (h : execLcmd cmd s = .next t) : t.touchView = s.touchView :=
  touchView_of_outcome h <| (runUops_keepsTouch _ s).andThen fun s1 =>
    Progress.KeepsTouch.andThen (runUops_keepsTouch _ (s1.setPhase .commandPhase)) fun s2 =>
    have hemit : (s2.emit (.lcdWrite false 0x00#8 cmd)).touchView = s2.touchView := touchView_emit s2 rfl
    Progress.KeepsTouch.finish ((runUops_keepsTouch _ _).trans hemit) fun _ => rfl

theorem exec_primitive_touchView {i : Instr} (hi : isPrimitive i = true) (h : exec i s = .next t) :
    t.touchView = s.touchView := by
  obtain ⟨⟨es, hev, habs⟩, hio, hread, hvalid⟩ := primitivesAppendNoAbstractEvent i s t hi h
  exact touchView_of_no_abstract hev habs hio hread hvalid

/-- IORD writes its response to LAST_READ, and neither IO_REG nor the I/O register (R181). -/
theorem exec_iord_touchView (h : exec .iord s = .next t) :
    ∃ w, t.resp = s.resp ++ [w] ∧ t.touchView = { s.touchView with lastRead := w, lastValid := true } := by
  have hkeep : UopKeeps s (Uop.stbd.effect (Uop.samp.effect (iordSampled s))) :=
    runUops_keeps [.stba, .setdir true, .addr false, .wait Config.wSetup, .samp, .stbd] s
  cases (execIord_eq s).symm.trans h
  have hview := (touchView_emit _ (e := .ioRead (iordSampled s).sampleByte) rfl).trans hkeep.touchView
  refine ⟨_, congrArg (· ++ [_]) hkeep.resp, ?_⟩
  rw [← hview]
  rfl

/-- TCFG raises for an illegal byte, or completes with the byte in IO_REG and one IoWrite event (R102, R182). -/
theorem exec_tcfg_touchView {b : Byte} (h : exec (.tcfg b) s = .next t) :
    t.touchView = s.touchView ∨ legalTouchByte s.cfg b = true ∧
      t.touchView = { s.touchView with ioReg := b, ioWrites := s.touchView.ioWrites ++ [(true, b)] } := by
  cases hb : legalTouchByte s.cfg b with
  | false => cases (execTcfg_raised hb).symm.trans h; exact .inl rfl
  | true =>
    cases (execTcfg_eq hb).symm.trans h
    exact .inr ⟨rfl, by simp [State.touchView, pushLastRead_eq, ioWrites, Event.ioWritten, List.filterMap_cons]⟩

/-- What a command can do to the touch view: nothing, the read of IORD, or the write of TCFG (R184, R185). -/
theorem exec_touchView_cases {i : Instr} (h : exec i s = .next t) :
    t.touchView = s.touchView ∨
    (i = .iord ∧ ∃ w, t.touchView = { s.touchView with lastRead := w, lastValid := true }) ∨
    ∃ b, legalTouchByte s.cfg b = true ∧
      t.touchView = { s.touchView with ioReg := b, ioWrites := s.touchView.ioWrites ++ [(true, b)] } := by
  cases i with
  | iord =>
    obtain ⟨w, -, hview⟩ := exec_iord_touchView h
    exact .inr (.inl ⟨rfl, w, hview⟩)
  | tcfg b => exact (exec_tcfg_touchView h).imp_right fun hwrite => .inr ⟨b, hwrite⟩
  | setdir | drvl | drvh | samp | addr | rda | rdd | wra | wrd | stba | stbd | wait | pdelay =>
    exact .inl (exec_primitive_touchView rfl h)
  | lcmd cmd => exact .inl (execLcmd_touchView h)
  | ldat | lpix | lpixr | lpixa | lwrd | lwrda =>
    exact .inl (touchView_of_outcome ((exec_fastData s rfl).symm.trans h) (fastWrite_keepsTouch _ _ s))
  | lrdid => exact .inl (touchView_of_outcome ((exec_lrdid s).symm.trans h) (readTransaction_keepsTouch _ _ _ s))
  | lrdfm => exact .inl (touchView_of_outcome ((exec_lrdfm s).symm.trans h) (readTransaction_keepsTouch _ _ _ s))
  | rota => cases h; exact .inl (touchView_emit s (e := .rotA _) rfl)
  | sqx xs => exact .inl (touchView_of_outcome h ((guardWith_keepsTouch s _ _).finish fun _ => rfl))
  | bqf x => cases h; exact .inl rfl

end

/-- Settles O40: the touch view holds both registers, and TCFG does not change them either. -/
theorem onlyIordWritesLastRead : Obligations.OnlyIordWritesLastRead := by
  unfold Obligations.OnlyIordWritesLastRead
  intro i s t hiord h
  rcases exec_touchView_cases h with hview | ⟨rfl, -⟩ | ⟨b, -, hview⟩
  · exact ⟨congrArg TouchView.lastRead hview, congrArg TouchView.lastValid hview⟩
  · exact absurd rfl hiord
  · exact ⟨congrArg TouchView.lastRead hview, congrArg TouchView.lastValid hview⟩

/-- TCFG with a legal byte answers a valid LAST_READ (R182). -/
theorem exec_tcfg_resp {b : Byte} {s t : State} (hb : legalTouchByte s.cfg b = true) (hvalid : s.lastValid = true)
    (h : exec (.tcfg b) s = .next t) : t.resp = s.resp ++ [s.lastRead] := by
  cases (execTcfg_eq hb).symm.trans h
  simp [pushLastRead_eq, hvalid]

/-- Settles O39: IORD leaves its response in LAST_READ, and no TCFG takes it away. -/
theorem touchRoundTrip : Obligations.TouchRoundTrip := by
  unfold Obligations.TouchRoundTrip
  intro s a b c c1 c2 ha hb hc
  obtain ⟨w, hresp, hview⟩ := exec_iord_touchView ha
  have hread : a.lastRead = w := congrArg TouchView.lastRead hview
  have hvalid : a.lastValid = true := congrArg TouchView.lastValid hview
  obtain ⟨hreadb, hvalidb⟩ := onlyIordWritesLastRead (.tcfg _) a b nofun hb
  have hcfga : a.cfg = s.cfg := congrArg Inputs.cfg (exec_inputs ha)
  have hcfgb : b.cfg = s.cfg := (congrArg Inputs.cfg (exec_inputs hb)).trans hcfga
  have hlegal (x : TouchConfig) : legalTouchByte s.cfg (touchByte s.cfg x) = true := legalTouchByte_iff.2 ⟨x, rfl⟩
  refine ⟨w, hresp, ?_, ?_⟩
  · rw [exec_tcfg_resp (hcfga ▸ hlegal c1) hvalid hb, hread]
  · rw [exec_tcfg_resp (hcfgb ▸ hlegal c2) (hvalidb.trans hvalid) hc, hreadb, hread]

/-- A command leaves IO_REG and the I/O register alone, or is a TCFG that has written its legal byte to both (R185). -/
theorem exec_ioReg_cases {i : Instr} {s t : State} (h : exec i s = .next t) : ∃ es, t.ev = s.ev ++ es ∧
    (ioWrites es = [] ∧ t.ioReg = s.ioReg ∨
      ∃ b, legalTouchByte s.cfg b = true ∧ ioWrites es = [(true, b)] ∧ t.ioReg = b) := by
  obtain ⟨⟨es, hev⟩, -⟩ := exec_history h
  have hgain {ws} (hw : t.touchView.ioWrites = s.touchView.ioWrites ++ ws) : ioWrites es = ws := by
    have hes : ioWrites (s.ev ++ es) = ioWrites s.ev ++ ws := hev ▸ hw
    exact List.append_cancel_left ((ioWrites_append _ _).symm.trans hes)
  refine ⟨es, hev, ?_⟩
  rcases exec_touchView_cases h with hview | ⟨-, w, hview⟩ | ⟨b, hb, hview⟩
  · exact .inl ⟨hgain (by rw [hview, List.append_nil]), congrArg TouchView.ioReg hview⟩
  · exact .inl ⟨hgain (by rw [hview, List.append_nil]), congrArg TouchView.ioReg hview⟩
  · exact .inr ⟨b, hb, hgain (by rw [hview]), congrArg TouchView.ioReg hview⟩

/-- Settles O41: only TCFG writes IO_REG or the I/O register, and it writes one byte to both. -/
theorem onlyLegalBytesLatched : Obligations.OnlyLegalBytesLatched := by
  unfold Obligations.OnlyLegalBytesLatched
  intro i s t h
  obtain ⟨es, hev, ⟨hnone, hio⟩ | ⟨b, hb, hone, hio⟩⟩ := exec_ioReg_cases h
  · refine ⟨es, hev, fun a v hmem => ?_, fun _ => hio⟩
    rw [← mem_ioWrites, hnone] at hmem
    cases hmem
  · refine ⟨es, hev, fun a v hmem => ?_, fun hno => ?_⟩
    · rw [← mem_ioWrites, hone] at hmem
      cases List.mem_singleton.1 hmem
      exact ⟨rfl, legalTouchByte_iff.1 hb, hio⟩
    · exact absurd (mem_ioWrites.1 (hone ▸ List.mem_singleton_self _)) (hno true b)

end Sys2Proof.Machine
end

section
/-!
PROOFS. The family of 43_squelch.md: the arithmetic of a filter step (rules R201 and R202), the energy measures (rule
R204), what BQF and SQX leave where they complete and where SQX raises (rules R201, R203, R205 and R207), the filter
state from block to block (rule R206), silence (rule R210), and the independence of the bus controller (rule R200).
-/
namespace Sys2Proof.Machine

/-! ### The arithmetic of a filter step (R201, R202) -/

theorem roundShift_eq (acc : Int) : roundShift acc = (acc + 8192) / 16384 := rfl

theorem sat16_eq_clamp (v : Int) : sat16 v = max (-32768) (min 32767 v) := by
  unfold sat16
  omega

/-- Saturation brings every value into the range of a `Half`, so the pattern of an output loses nothing (R202). -/
theorem biquadOut_toInt (c : Coef) (b : Biquad) (x : Half) :
    (biquadOut c b x).toInt = sat16 (roundShift (biquadAcc c b x)) := by
  have hclamp := sat16_eq_clamp (roundShift (biquadAcc c b x))
  exact BitVec.toInt_ofInt_eq_self (by decide) (by omega) (by omega)

theorem absOf_le (y : Half) : absOf y ≤ 32768 := by
  have hlow : -32768 ≤ y.toInt := y.le_toInt
  have hhigh : y.toInt < 32768 := y.toInt_lt
  unfold absOf
  omega

theorem natAbs_product_le (a y : Half) : (a.toInt * y.toInt).natAbs ≤ absOf a * 32768 := by
  rw [Int.natAbs_mul]
  exact Nat.mul_le_mul_left _ (absOf_le y)

/-- The accumulator is at most the sum of the coefficient magnitudes times the greatest magnitude of a sample (R202). -/
theorem natAbs_biquadAcc_le (c : Coef) (b : Biquad) (x : Half) :
    (biquadAcc c b x).natAbs ≤ (absOf c.b0 + absOf c.b1 + absOf c.b2 + absOf c.a1 + absOf c.a2) * 32768 := by
  have hb0 := natAbs_product_le c.b0 x
  have hb1 := natAbs_product_le c.b1 b.x1
  have hb2 := natAbs_product_le c.b2 b.x2
  have ha1 := natAbs_product_le c.a1 b.y1
  have ha2 := natAbs_product_le c.a2 b.y2
  unfold biquadAcc
  omega

/-- Settles O43: the laws of the floor division, of the clamp, of the output's width and of the accumulator's. -/
theorem biquadArithmeticLaws : Obligations.BiquadArithmeticLaws := by
  unfold Obligations.BiquadArithmeticLaws
  refine ⟨fun acc => ?_, sat16_eq_clamp, biquadOut_toInt, fun c b x hsum => ?_⟩
  · rw [roundShift_eq]
    omega
  · have hacc := natAbs_biquadAcc_le c b x
    omega

/-! ### A block of samples (R203, R206) -/

theorem biquadBlock_append (c : Coef) (b : Biquad) (xs ys : List Half) :
    biquadBlock c b (xs ++ ys) = biquadBlock c (biquadBlock c b xs) ys := by
  induction xs generalizing b with
  | nil => rfl
  | cons x xs ih => exact ih (biquadStep c b x)

theorem biquadOutputs_append (c : Coef) (b : Biquad) (xs ys : List Half) :
    biquadOutputs c b (xs ++ ys) = biquadOutputs c b xs ++ biquadOutputs c (biquadBlock c b xs) ys := by
  induction xs generalizing b with
  | nil => rfl
  | cons x xs ih => exact congrArg (biquadOut c b x :: ·) (ih (biquadStep c b x))

/-! ### The energy measures (R204) -/

theorem measureOf_sumSq (ys : List Half) : measureOf .sumSq ys = (ys.map fun y => absOf y * absOf y).sum := rfl

theorem measureOf_sumAbs (ys : List Half) : measureOf .sumAbs ys = (ys.map absOf).sum := rfl

/-- PeakSq is an upper bound of the squares. -/
theorem sq_le_measureOf_peakSq {ys : List Half} {y : Half} (h : y ∈ ys) : absOf y * absOf y ≤ measureOf .peakSq ys :=
  List.le_max_of_le (List.mem_map_of_mem h) le_rfl

/-- PeakSq is the least upper bound of the squares. -/
theorem measureOf_peakSq_le {ys : List Half} {n : Nat} (h : ∀ y ∈ ys, absOf y * absOf y ≤ n) :
    measureOf .peakSq ys ≤ n :=
  List.max_le_of_forall_le _ n (List.forall_mem_map.2 h)

/-- PeakSq is one of the squares. -/
theorem exists_sq_eq_measureOf_peakSq {ys : List Half} (h : ys ≠ []) :
    ∃ y ∈ ys, absOf y * absOf y = measureOf .peakSq ys :=
  List.mem_map.1 (List.maximum_mem (List.foldr_max_of_ne_nil (mt List.map_eq_nil_iff.1 h)).symm)

theorem absOf_sq (y : Half) : ((absOf y * absOf y : Nat) : Int) = y.toInt * y.toInt := Int.natAbs_mul_self

theorem absOf_cast (y : Half) : (absOf y : Int) = if y.toInt < 0 then -y.toInt else y.toInt := by
  unfold absOf
  omega

theorem absOf_sq_le (y : Half) : absOf y * absOf y ≤ 2 ^ 30 :=
  (Nat.mul_le_mul (absOf_le y) (absOf_le y)).trans (by decide)

/-- A sum over at most 32 outputs, each at most `n` (R36). -/
theorem sum_map_le_of_length_le {f : Half → Nat} {n : Nat} (hf : ∀ y, f y ≤ n) {ys : List Half} (h : ys.length ≤ 32) :
    (ys.map f).sum ≤ 32 * n :=
  calc (ys.map f).sum
    _ ≤ (ys.map f).length • n := List.sum_le_card_nsmul _ n (List.forall_mem_map.2 fun y _ => hf y)
    _ = ys.length * n := by rw [List.length_map, smul_eq_mul]
    _ ≤ 32 * n := Nat.mul_le_mul_right n h

/-- Settles O45: the sums term by term, the peak by its bound and its place in the list. -/
theorem measureBounds : Obligations.MeasureBounds := by
  unfold Obligations.MeasureBounds
  refine ⟨fun ys => ⟨?_, ?_, fun y hy => ?_, fun hne => ?_⟩, fun m => ?_, fun ys hlen => ⟨?_, ?_, ?_⟩, rfl, rfl, rfl⟩
  · rw [measureOf_sumSq, Nat.cast_list_sum, List.map_map]
    exact congrArg (fun f => (ys.map f).sum) (funext absOf_sq)
  · rw [measureOf_sumAbs, Nat.cast_list_sum, List.map_map]
    exact congrArg (fun f => (ys.map f).sum) (funext absOf_cast)
  · rw [← absOf_sq]
    exact Int.ofNat_le.2 (sq_le_measureOf_peakSq hy)
  · obtain ⟨y, hy, hpeak⟩ := exists_sq_eq_measureOf_peakSq hne
    exact ⟨y, hy, by rw [← hpeak, absOf_sq]⟩
  · cases m <;> rfl
  · exact measureOf_peakSq_le fun y _ => absOf_sq_le y
  · exact sum_map_le_of_length_le absOf_sq_le hlen
  · exact sum_map_le_of_length_le absOf_le hlen

/-! ### The two commands (R201, R203, R205, R207) -/

/-- Settles O42: the step of R201 is the whole command. -/
theorem bqfResult : Obligations.BqfResult := by
  unfold Obligations.BqfResult
  exact fun x s => ⟨biquadOut s.cfg.bqCoef s.biq x, rfl, biquadOut_toInt _ _ _, exec_bqf s x⟩

section
variable {xs : List Half} (s : State)

/-- SQX of a legal block always completes (R203). -/
theorem exec_sqx_ok (h : xs.length ≤ Config.sqN) : exec (.sqx xs) s =
    .next (((s.setBiquad (biquadBlock s.cfg.bqCoef s.biq xs)).push
      (respLevel (classify s.cfg (biquadOutputs s.cfg.bqCoef s.biq xs)))).advance (1 + xs.length)) := by
  rw [exec_sqx, execSqx, State.guardWith, if_pos (decide_eq_true h), Progress.andThen_ok, Progress.outcome_ok]

/-- SQX of a longer block does nothing but raise (R203). -/
theorem exec_sqx_raised (h : Config.sqN < xs.length) :
    exec (.sqx xs) s = .next (s.raise (.lengthMismatch xs.length)) := by
  rw [exec_sqx, execSqx, State.guardWith, if_neg (mt of_decide_eq_true (Nat.not_le.2 h)), Progress.andThen_raised,
    Progress.outcome_raised]

end

/-- Settles O44: the two ends of SQX, and the recursion of the block on its samples. -/
theorem sqxResult : Obligations.SqxResult := by
  unfold Obligations.SqxResult
  refine ⟨fun xs s => ⟨exec_sqx_ok s, exec_sqx_raised s⟩, fun c b => ⟨rfl, rfl⟩, fun c b x xs => ?_⟩
  exact ⟨biquadOut c b x, biquadOut_toInt c b x, rfl, rfl⟩

/-- Settles O7: the length is checked before the stream is looked at. -/
theorem longBlockRejected : Obligations.LongBlockRejected := by
  unfold Obligations.LongBlockRejected
  intro len ws h
  rw [decode_of_decodeHead (decodeHead_sqx len), decodeTail, decodeSamples, if_pos h]

/-- Settles O46: the second block starts from the registers the first has left, under the same coefficients. -/
theorem filterStatePersists : Obligations.FilterStatePersists := by
  unfold Obligations.FilterStatePersists
  intro xs ys s t u hxs hys ht hu
  cases (exec_sqx_ok s hxs).symm.trans ht
  cases (exec_sqx_ok _ hys).symm.trans hu
  exact ⟨(biquadBlock_append _ _ xs ys).symm, biquadOutputs_append _ _ xs ys⟩

/-! ### Silence (R210) -/

/-- The filter registers of an empty history. -/
def Biquad.empty : Biquad := { x1 := 0#16, x2 := 0#16, y1 := 0#16, y2 := 0#16 }

/-- Every product with an empty history is 0, and 0 rounds to 0. -/
theorem biquadOut_empty_zero (c : Coef) : biquadOut c .empty 0#16 = 0#16 := by
  have hacc : biquadAcc c .empty 0#16 = 0 := by simp [biquadAcc, Biquad.empty]
  rw [biquadOut, hacc]
  rfl

theorem biquadStep_empty_zero (c : Coef) : biquadStep c .empty 0#16 = .empty := by
  rw [biquadStep, biquadOut_empty_zero]
  rfl

theorem biquadBlock_empty_zeros (c : Coef) (n : Nat) : biquadBlock c .empty (List.replicate n 0#16) = .empty := by
  induction n with
  | zero => rfl
  | succ n ih => rw [List.replicate_succ, biquadBlock, biquadStep_empty_zero, ih]

theorem biquadOutputs_empty_zeros (c : Coef) (n : Nat) :
    biquadOutputs c .empty (List.replicate n 0#16) = List.replicate n 0#16 := by
  induction n with
  | zero => rfl
  | succ n ih => rw [List.replicate_succ, biquadOutputs, biquadOut_empty_zero, biquadStep_empty_zero, ih]

theorem measureOf_zeros (m : Measure) (n : Nat) : measureOf m (List.replicate n 0#16) = 0 := by
  have hzero (y) (hy : y ∈ List.replicate n 0#16) : absOf y = 0 := by
    rw [List.eq_of_mem_replicate hy]
    rfl
  cases m with
  | peakSq => exact Nat.le_zero.1 (measureOf_peakSq_le fun y hy => by rw [hzero y hy, Nat.zero_mul])
  | sumSq => exact List.sum_eq_zero (List.forall_mem_map.2 fun y hy => by rw [hzero y hy, Nat.zero_mul])
  | sumAbs => exact List.sum_eq_zero (List.forall_mem_map.2 hzero)

theorem limitOf_pos (m : Measure) : 0 < limitOf m := by
  cases m <;> decide

theorem classify_zeros {p : Params} (h : p.sqInvert = false) (n : Nat) :
    classify p (List.replicate n 0#16) = true := by
  rw [classify, measureOf_zeros, h, decide_eq_true (limitOf_pos _)]
  rfl

/-- Settles O48: zeros leave the empty history empty and come out as zeros, whose measure is 0. -/
theorem silenceIsOpen : Obligations.SilenceIsOpen := by
  unfold Obligations.SilenceIsOpen
  intro n s hn hbiq hinv
  have hempty : s.biq = .empty := hbiq
  have hlen : (List.replicate n 0#16 : List Half).length ≤ Config.sqN := by rwa [List.length_replicate]
  rw [exec_sqx_ok s hlen, hempty, biquadBlock_empty_zeros, biquadOutputs_empty_zeros, classify_zeros hinv,
    List.length_replicate, ← hempty]
  rfl

/-- Under the REFCFG coefficients a constant output is fed back with the weight 13087 - 7202 = 5885 (R209). -/
theorem biquadAcc_refcfg_zeroInput (y : Half) :
    biquadAcc Config.refcfg.bqCoef { x1 := 0#16, x2 := 0#16, y1 := y, y2 := y } 0#16 = 5885 * y.toInt := by
  have ha1 : Config.refcfg.bqCoef.a1.toInt = -13087 := by decide
  have ha2 : Config.refcfg.bqCoef.a2.toInt = 7202 := by decide
  simp only [biquadAcc, ha1, ha2, BitVec.toInt_zero]
  omega

/-- Settles O49: 5885 / 16384 shrinks every output by more than the rounding can make good. -/
theorem zeroInputHasNoFixedPoint : Obligations.ZeroInputHasNoFixedPoint := by
  unfold Obligations.ZeroInputHasNoFixedPoint
  intro y hy
  have hfix := biquadOut_toInt Config.refcfg.bqCoef { x1 := 0#16, x2 := 0#16, y1 := y, y2 := y } 0#16
  rw [hy, biquadAcc_refcfg_zeroInput, roundShift_eq, sat16_eq_clamp] at hfix
  have hzero : y.toInt = 0 := by omega
  exact BitVec.eq_of_toInt_eq hzero

/-! ### Independence of the bus controller (R200) -/

section
variable {s t : State}

/-- Two parts of a command that leave the filter registers. -/
theorem andThen_biq {p : Progress} {f : State → Progress} (h : p.last.biq = s.biq)
    (hf : ∀ t, (f t).last.biq = t.biq) : (p.andThen f).last.biq = s.biq :=
  andThen_last_rel (fun a b => b.biq = a.biq) (fun hab hbc => hbc.trans hab) h hf

theorem biq_of_outcome {p : Progress} (ht : p.outcome = .next t) (h : p.last.biq = s.biq) : t.biq = s.biq := by
  cases p with
  | ok u => cases ht; exact h
  | raised k u => cases ht; exact h

theorem runUops_biq (us : List Uop) (s : State) : (runUops us s).last.biq = s.biq := (runUops_keeps us s).biq

theorem primitive_biq (u : Uop) (s : State) : (primitive u s).last.biq = s.biq := by
  cases hc : u.check s with
  | none => rw [primitive_ok hc]; exact (u.effect_keeps s).biq
  | some k => rw [primitive_raised hc]; rfl

theorem dataWrites_biq (vs : List Half) (s : State) : (dataWrites vs s).last.biq = s.biq := by
  induction vs generalizing s with
  | nil => rfl
  | cons v vs ih => exact andThen_biq (andThen_biq (runUops_biq _ s) fun _ => rfl) ih

theorem fastWrite_biq (vs : List Half) (len : Nat) (s : State) : (fastWrite vs len s).last.biq = s.biq := by
  have hcheck : (if vs.isEmpty then Progress.ok s else requireDataPhase s).last = s := by
    split
    · rfl
    · exact guardWith_last s _ _
  exact andThen_biq (congrArg State.biq hcheck) fun t => andThen_biq (dataWrites_biq vs t) fun _ => rfl

theorem readTransaction_biq (profile : Profile) (waitHi waitLo : Uop) (s : State) :
    (readTransaction profile waitHi waitLo s).last.biq = s.biq :=
  andThen_biq (congrArg State.biq (guardWith_last s _ _)) fun s0 =>
  andThen_biq (runUops_biq _ s0) fun s1 =>
  andThen_biq (runUops_biq _ (s1.setPhase .readPhase)) fun s2 =>
  andThen_biq (runUops_biq _ s2) fun s3 =>
  andThen_biq (runUops_biq _ s3) fun _ => rfl

theorem exec_tcfg_biq {b : Byte} (h : exec (.tcfg b) s = .next t) : t.biq = s.biq := by
  cases hb : legalTouchByte s.cfg b with
  | false => cases (execTcfg_raised hb).symm.trans h; rfl
  | true => cases (execTcfg_eq hb).symm.trans h; simp [pushLastRead_eq]

/-- Outside the squelch commands no part of a command writes the filter registers. -/
theorem exec_biq {i : Instr} (hi : isSquelch i = false) (h : exec i s = .next t) : t.biq = s.biq := by
  cases i with
  | setdir | drvl | drvh | addr | rda | rdd | wra | wrd | stba | stbd | wait | pdelay =>
    exact biq_of_outcome ((exec_plainUop s rfl).symm.trans h) (primitive_biq _ s)
  | samp => exact biq_of_outcome ((exec_samp s).symm.trans h) (andThen_biq (primitive_biq .samp s) fun _ => rfl)
  | ldat | lpix | lpixr | lpixa | lwrd | lwrda =>
    exact biq_of_outcome ((exec_fastData s rfl).symm.trans h) (fastWrite_biq _ _ s)
  | lrdid => exact biq_of_outcome ((exec_lrdid s).symm.trans h) (readTransaction_biq _ _ _ s)
  | lrdfm => exact biq_of_outcome ((exec_lrdfm s).symm.trans h) (readTransaction_biq _ _ _ s)
  | lcmd cmd => cases (execLcmd_eq cmd s).symm.trans h; simp
  | iord => cases (execIord_eq s).symm.trans h; simp [iordSampled]
  | tcfg b => exact exec_tcfg_biq h
  | rota => cases h; rfl
  | sqx | bqf => cases hi

/-- The squelch commands touch the filter registers, RESP, CP and FAULT alone. -/
theorem exec_squelch_frame {i : Instr} (hi : isSquelch i = true) (h : exec i s = .next t) :
    t = { s with biq := t.biq, resp := t.resp, cp := t.cp, fault := t.fault } := by
  cases i with
  | bqf x => cases h; rfl
  | sqx xs =>
    rcases Nat.lt_or_ge Config.sqN xs.length with hlong | hlen
    · cases (exec_sqx_raised s hlong).symm.trans h; rfl
    · cases (exec_sqx_ok s hlen).symm.trans h; rfl
  | _ => cases hi

end

/-- Settles O47: the frame of the squelch commands, and `exec_biq` for all others. -/
theorem squelchIsIndependent : Obligations.SquelchIsIndependent := by
  unfold Obligations.SquelchIsIndependent
  exact ⟨fun _ _ _ => exec_squelch_frame, fun _ _ _ => exec_biq⟩

end Sys2Proof.Machine
end

section
/-!
PROOFS. The family of 60_exceptions.md: fault entry records the fault with the CP of the command, changes nothing else,
and ends the run (rules R231 and R232, and rule R41 of 10_state.md).
-/
namespace Sys2Proof.Machine

/-! ### Fault entry at decode (R231) -/

/-- Where the words at CP decode to no command, an unfaulted step is the fault entry for the decode error. -/
theorem step_of_decode_bad {s : State} {e : DecodeError} (hfault : s.fault = none) (hcp : s.cp < s.cs.length)
    (hdecode : decode (s.cs.drop s.cp) = .bad e) : step s = .next (s.raise (faultOf s.cp e)) := by
  have hfetch : s.fetch = .illegal (faultOf s.cp e) := by rw [fetch_inside hcp, hdecode]
  rw [step, hfault, hfetch]

/-- Settles O10: the three decode errors are three cases of one fault entry, and `faultOf` gives each its info. -/
theorem stepRecordsDecodeFault : Obligations.StepRecordsDecodeFault := by
  unfold Obligations.StepRecordsDecodeFault
  intro s hfault hcp
  have hentry (e : DecodeError) (hdecode : decode (s.cs.drop s.cp) = .bad e) :
      step s = .next { s with fault := some { kind := faultOf s.cp e, cp := s.cp } } := by
    rw [step_of_decode_bad hfault hcp hdecode, raise_of_empty hfault]
  exact ⟨fun w => hentry (.illegalCommand w), fun len => hentry (.lengthMismatch len), fun k => hentry (.truncated k)⟩

/-! ### Fault entry of a command (R232) -/

/-- `t` has FAULT as `s` has it, or is the fault entry of `s` itself, with nothing done before the check that failed. -/
def Precise (s t : State) : Prop := t.fault = s.fault ∨ ∃ k, t = s.raise k

section
variable {i : Instr} {s t : State}

/-- The one check of a primitive command comes before its writes (R120). -/
theorem exec_primitive_precise (hi : isPrimitive i = true) (h : exec i s = .next t) : Precise s t := by
  rcases exec_primitive_cases hi h with hraise | ⟨-, rfl⟩ | ⟨u, -, rfl⟩
  · exact .inr hraise
  · exact .inl rfl
  · exact .inl (u.effect_keeps s).fault

/-- With legal waits a transaction fails in its entry check alone (R150 step (6)). -/
theorem exec_transaction_precise (hi : isTransaction i = true) (hwaits : waitsLegal s.cfg) (h : exec i s = .next t) :
    Precise s t := by
  obtain ⟨p, hp, hstops⟩ := exec_stopsAtEntry hi hwaits
  cases p with
  | ok u =>
    cases hp.symm.trans h
    exact .inl hstops
  | raised k u =>
    obtain ⟨rfl, -⟩ := hstops
    cases hp.symm.trans h
    exact .inr ⟨k, rfl⟩

/-- The length check of SQX comes before the first sample (R203). -/
theorem exec_sqx_precise {xs : List Half} (h : exec (.sqx xs) s = .next t) : Precise s t := by
  rcases Nat.lt_or_ge Config.sqN xs.length with hlong | hlen
  · cases (exec_sqx_raised s hlong).symm.trans h
    exact .inr ⟨_, rfl⟩
  · cases (exec_sqx_ok s hlen).symm.trans h
    exact .inl rfl

/-- Every command, by the class it is in. -/
theorem exec_precise (hwaits : waitsLegal s.cfg) (h : exec i s = .next t) : Precise s t := by
  cases i with
  | setdir | drvl | drvh | samp | addr | rda | rdd | wra | wrd | stba | stbd | wait | pdelay =>
    exact exec_primitive_precise rfl h
  | lcmd | ldat | lpix | lpixr | lpixa | lwrd | lwrda | lrdid | lrdfm | iord | tcfg =>
    exact exec_transaction_precise rfl hwaits h
  | rota | bqf => cases h; exact .inl rfl
  | sqx xs => exact exec_sqx_precise h

theorem step_precise (hwaits : waitsLegal s.cfg) (h : step s = .next t) : Precise s t := by
  obtain ⟨-, -, ⟨i, rest, -, hexec⟩ | ⟨e, -, rfl⟩⟩ := step_eq_next h
  · exact exec_precise hwaits hexec
  · exact .inr ⟨_, rfl⟩

/-- From an empty FAULT a record can only have come from the fault entry, which names CP and writes no other field. -/
theorem Precise.eq_of_fault {r : FaultRecord} (h : Precise s t) (hs : s.fault = none) (ht : t.fault = some r) :
    r.cp = s.cp ∧ t = { s with fault := some r } := by
  rcases h with hkeep | ⟨k, rfl⟩
  · rw [hkeep, hs] at ht
    cases ht
  · rw [raise_of_empty hs] at ht ⊢
    cases ht
    exact ⟨rfl, rfl⟩

end

/-- Settles O53: a step runs only from an empty FAULT, so a record after it is its own fault entry, and there `step`
halts. -/
theorem faultsArePrecise : Obligations.FaultsArePrecise := by
  unfold Obligations.FaultsArePrecise
  intro s t r hwaits h ht
  obtain ⟨hs, -, -⟩ := step_eq_next h
  obtain ⟨hcp, heq⟩ := (step_precise hwaits h).eq_of_fault hs ht
  exact ⟨hcp, heq, faultedStateStops t r ht⟩

end Sys2Proof.Machine
end

section
/-!
PROOFS. The family of 70_reset_and_hazards.md: where a run ends (rule R263), when SETTLE is short (rule R265), and how
long a wait is (rule R272).
-/
namespace Sys2Proof.Machine

/-! ### The wait counts (R272) -/

/-- The wait count is the library's ceiling division: ceil(T * F_CLK) with T in nanoseconds. -/
theorem cyclesOf_eq_ceilDiv (p : Params) (ns : Nat) : cyclesOf p ns = (ns * p.fClk) ⌈/⌉ 1000000000 := by
  rw [cyclesOf, Nat.ceilDiv_eq_add_pred_div, Nat.add_sub_assoc (by decide)]

/-- The wait counts that reach `cyclesOf p ns` are those that last `ns` nanoseconds. -/
theorem cyclesOf_le_iff {p : Params} {ns n : Nat} : cyclesOf p ns ≤ n ↔ ns * p.fClk ≤ n * 1000000000 := by
  rw [cyclesOf_eq_ceilDiv, ceilDiv_le_iff_le_mul (by decide), Nat.mul_comm n]

/-- Settles O59: a count lasts the time exactly when it is at least `cyclesOf`, so `cyclesOf` is one that does, and the
least. -/
theorem waitCyclesAreCeiling : Obligations.WaitCyclesAreCeiling := by
  unfold Obligations.WaitCyclesAreCeiling
  refine ⟨fun p ns => ⟨?lasts, fun n => ?least⟩, fun p => ⟨rfl, rfl, rfl, rfl⟩, ?refcfg⟩
  case lasts => exact cyclesOf_le_iff.1 le_rfl
  case least => exact cyclesOf_le_iff.2
  case refcfg => decide

/-! ### The end of the stream (R263) -/

/-- At CP = length(CS) there is nothing to fetch. -/
theorem fetch_at_end {s : State} (h : s.cp = s.cs.length) : s.fetch = .ended := if_pos h

/-- Settles O12: at the end of the stream fetch finds no command, and an unfaulted step answers what fetch found. -/
theorem runEndsAtStreamEnd : Obligations.RunEndsAtStreamEnd := by
  unfold Obligations.RunEndsAtStreamEnd
  intro s hfault hend
  rw [step, hfault, fetch_at_end hend]

/-! ### The settle test (R265) -/

/-- A wait of at least W_SETUP cycles meets the settle rule, whatever was counted before it. -/
theorem Settle.short_add_of_le {n : Nat} (hn : Config.wSetup ≤ n) (t : Settle) : (t.add n).short = false := by
  cases t with
  | cycles m => simpa using Nat.le_add_left_of_le hn
  | inf => rfl

/-- Settles O21: the settle test is a comparison with W_SETUP = 3, and a wait only raises the count. -/
theorem settleShortMeansBelowSetup : Obligations.SettleShortMeansBelowSetup := by
  unfold Obligations.SettleShortMeansBelowSetup
  refine ⟨fun n => ?counted, Settle.short_inf, fun t n hn => Settle.short_add_of_le hn t⟩
  case counted => rw [Settle.short_cycles, decide_eq_true_iff]

end Sys2Proof.Machine
end
